-- ==== Sys2Proof/Word.lean ====
section
/-! DEFINITION. The word types of the block: bytes, 16- and 32-bit quantities, register indices, transaction words, and
the 16-byte strings held in four registers. -/

namespace Sys2Proof

/-- Eight bits: an element of a byte string (00_scope.md R8). -/
abbrev Byte := BitVec 8

/-- Sixteen bits: an accumulator, a message length, a checksum (10_state.md R21). -/
abbrev Half := BitVec 16

/-- Thirty-two bits: the width of every register and of every transfer (20_memory.md R74). -/
abbrev Word := BitVec 32

/-- A register index, `0x00..0x7F` (10_state.md R45). -/
abbrev Idx := BitVec 7

/-- The 40-bit transaction word `WE :: IDX :: WDATA` (30_encoding.md R101). -/
abbrev TWord := BitVec 40

/-- A 16-byte string held in four 32-bit registers `X0..X3` (00_scope.md R8, 20_memory.md R72): byte `4n+j` is bits
`8j+7:8j` of `Xn`. -/
structure Block where
  /-- bytes 0 to 3 -/
  x0 : Word
  /-- bytes 4 to 7 -/
  x1 : Word
  /-- bytes 8 to 11 -/
  x2 : Word
  /-- bytes 12 to 15 -/
  x3 : Word
  deriving DecidableEq, Repr

/-- Sixteen bytes of `0x00`. -/
def Block.zero : Block := ⟨0, 0, 0, 0⟩

end Sys2Proof
end

