-- ==== Sys2Proof/Syntax.lean ====
section
/-! DEFINITION. The operations of the block, one constructor per row of spec/opcode_table.json (30_encoding.md R104, R105,
R106 and the two fallback rows of R112). An operation is a host transaction with its operands taken out (R103). -/

namespace Sys2Proof

/-- `CTRL.DIR` (10_state.md R33): 0 encrypts, 1 decrypts. -/
inductive Direction where
  | encrypt
  | decrypt
  deriving DecidableEq, Repr

/-- The number of a register inside a four-register group, the operand `n` of 30_encoding.md R103. -/
abbrev WordNo := Fin 4

/-- The operations: thirteen reads, nine register writes, nine commands. -/
inductive Instr where
  /-- `RD.ID` -/
  | rdId
  /-- `RD.STATUS` -/
  | rdStatus
  /-- `RD.CTRL` -/
  | rdCtrl
  /-- `RD.ERR` -/
  | rdErr
  /-- `RD.LEN` -/
  | rdLen
  /-- `RD.REM` -/
  | rdRem
  /-- `RD.CKSUM` -/
  | rdCksum
  /-- `RD.CK_ACC` -/
  | rdCkAcc
  /-- `RD.IVn` -/
  | rdIv (n : WordNo)
  /-- `RD.DINn` -/
  | rdDin (n : WordNo)
  /-- `RD.DOUTn` -/
  | rdDout (n : WordNo)
  /-- `RD.CVn` -/
  | rdCv (n : WordNo)
  /-- `WR.CTRL` -/
  | wrCtrl (dir : Direction) (tap : Bool)
  /-- `WR.LEN` -/
  | wrLen (len : Half)
  /-- `WR.CK_DATA8` -/
  | wrCkData8 (byte : Byte)
  /-- `WR.CK_DATA32` -/
  | wrCkData32 (word : Word)
  /-- `WR.CK_VERIFY` -/
  | wrCkVerify (expect : Half)
  /-- `WR.KEYn` -/
  | wrKey (n : WordNo) (word : Word)
  /-- `WR.IVn` -/
  | wrIv (n : WordNo) (word : Word)
  /-- `WR.DINn` -/
  | wrDin (n : WordNo) (word : Word)
  /-- `NOP` -/
  | nop
  /-- `CK_INIT` -/
  | ckInit
  /-- `C_START` -/
  | cStart
  /-- `C_BLOCK` -/
  | cBlock
  /-- `C_FINISH` -/
  | cFinish
  /-- `C_ABORT` -/
  | cAbort
  /-- `KEY_CLEAR` -/
  | keyClear
  /-- `EACK` -/
  | eack
  /-- `SRST` -/
  | srst
  /-- `RD.ZERO`, the read fallback: the index read -/
  | rdZero (idx : Idx)
  /-- `WR.ILLEGAL`, the write fallback: the index and the data written -/
  | wrIllegal (idx : Idx) (data : Word)
  deriving DecidableEq, Repr

end Sys2Proof
end

