-- ==== Sys2Proof/WellFormed.lean ====
section
/-! DEFINITION. When an operation is one the encoding can express: the operands of all rows but the two fallback rows are
bounded by their types; the fallback rows stand exactly for the indices and words that no other row takes. -/

namespace Sys2Proof

/-- The indices of 30_encoding.md R104 that a row other than `RD.ZERO` reads. -/
def readableIdx (idx : Idx) : Bool :=
  [0x00, 0x01, 0x02, 0x04, 0x05, 0x06, 0x0A, 0x0C].contains idx.toNat || (0x18 ≤ idx.toNat && idx.toNat ≤ 0x27)

/-- Case 1 of 30_encoding.md R107: the read-only registers. -/
def readOnlyIdx (idx : Idx) : Bool :=
  [0x00, 0x01, 0x04, 0x06, 0x0A, 0x0C].contains idx.toNat || (0x20 ≤ idx.toNat && idx.toNat ≤ 0x27)

/-- Case 2 of 30_encoding.md R107: the reserved indices. -/
def reservedIdx (idx : Idx) : Bool :=
  idx.toNat == 0x07 || (0x0D ≤ idx.toNat && idx.toNat ≤ 0x0F) || (0x14 ≤ idx.toNat && idx.toNat ≤ 0x17) ||
    0x28 ≤ idx.toNat

/-- Cases 3 to 5 of 30_encoding.md R107: reserved data bits of `CTRL`, `LEN`, `CK_VERIFY`, `CK_DATA8`. -/
def reservedBitsSet (idx : Idx) (data : Word) : Bool :=
  (idx.toNat == 0x02 && !(data.toNat / 16 == 0 && data.toNat / 2 % 4 == 0)) ||
    ((idx.toNat == 0x05 || idx.toNat == 0x0B) && !(data.toNat / 65536 == 0)) ||
    (idx.toNat == 0x08 && !(data.toNat / 256 == 0))

/-- Case 6 of 30_encoding.md R107: `CMD` data that is no opcode. -/
def undefinedCommand (idx : Idx) (data : Word) : Bool :=
  idx.toNat == 0x03 && !([0x00, 0x01, 0x10, 0x11, 0x12, 0x13, 0x20, 0x7E, 0x7F].contains data.toNat)

/-- The illegal writes, the six cases of 30_encoding.md R107. -/
def illegalWrite (idx : Idx) (data : Word) : Bool :=
  readOnlyIdx idx || reservedIdx idx || reservedBitsSet idx data || undefinedCommand idx data

/-- The well-formed operations. -/
def Instr.wellFormed : Instr → Bool
  | .rdId | .rdStatus | .rdCtrl | .rdErr | .rdLen | .rdRem | .rdCksum | .rdCkAcc => true
  | .rdIv _ | .rdDin _ | .rdDout _ | .rdCv _ => true
  | .wrCtrl _ _ | .wrLen _ | .wrCkData8 _ | .wrCkData32 _ | .wrCkVerify _ => true
  | .wrKey _ _ | .wrIv _ _ | .wrDin _ _ => true
  | .nop | .ckInit | .cStart | .cBlock | .cFinish | .cAbort | .keyClear | .eack | .srst => true
  | .rdZero idx => !readableIdx idx
  | .wrIllegal idx data => illegalWrite idx data

end Sys2Proof
end

