-- ==== Sys2Proof/Decode.lean ====
section
/-! DEFINITION. The transaction word, the decoder (total over all 2^40 words, 30_encoding.md R112) and the encoder. -/

namespace Sys2Proof

/-! ## The register map (10_state.md R45) and the command opcodes (30_encoding.md R106) -/

def Reg.id : Idx := 0x00
def Reg.status : Idx := 0x01
def Reg.ctrl : Idx := 0x02
def Reg.cmd : Idx := 0x03
def Reg.err : Idx := 0x04
def Reg.len : Idx := 0x05
def Reg.rem : Idx := 0x06
def Reg.ckData8 : Idx := 0x08
def Reg.ckData32 : Idx := 0x09
def Reg.cksum : Idx := 0x0A
def Reg.ckVerify : Idx := 0x0B
def Reg.ckAcc : Idx := 0x0C
def Reg.key0 : Idx := 0x10
def Reg.iv0 : Idx := 0x18
def Reg.din0 : Idx := 0x1C
def Reg.dout0 : Idx := 0x20
def Reg.cv0 : Idx := 0x24

def Opcode.nop : Byte := 0x00
def Opcode.ckInit : Byte := 0x01
def Opcode.cStart : Byte := 0x10
def Opcode.cBlock : Byte := 0x11
def Opcode.cFinish : Byte := 0x12
def Opcode.cAbort : Byte := 0x13
def Opcode.keyClear : Byte := 0x20
def Opcode.eack : Byte := 0x7E
def Opcode.srst : Byte := 0x7F

/-- Register `n` of the four-register group that starts at `base` (30_encoding.md R104, R105). -/
def groupIdx (base : Idx) (n : WordNo) : Idx := base + BitVec.ofNat 7 n.val

/-- Whether `idx` is one of the four registers that start at `base` (mask `FC` of 30_encoding.md R104, R105). -/
def inGroup (base idx : Idx) : Bool := idx &&& 0x7C == base

/-- The operand `n`, `T[33:32]` = `IDX[1:0]` (30_encoding.md R103). -/
def wordNoOf (idx : Idx) : WordNo := Fin.ofNat 4 idx.toNat

/-- The data word of a command: bits 31:8 zero (30_encoding.md R102, format `C`). -/
def commandData (op : Byte) : Word := op.setWidth 32

/-- The bit of `CTRL.DIR` (10_state.md R33). -/
def Direction.toBit : Direction → Bool
  | .encrypt => false
  | .decrypt => true

/-- The direction a `CTRL.DIR` bit selects (10_state.md R33). -/
def Direction.ofBit : Bool → Direction
  | false => .encrypt
  | true => .decrypt

/-- The data word of `WR.CTRL`: `TAP` in bit 3, `MODE = 00`, `DIR` in bit 0 (10_state.md R33, 30_encoding.md R103). -/
def ctrlData (dir : Direction) (tap : Bool) : Word :=
  (BitVec.ofBool tap ++ 0#2 ++ BitVec.ofBool dir.toBit).setWidth 32

/-! ## The transaction word (30_encoding.md R101) -/

/-- `T[39]`: 1 = write. -/
def weOf (t : TWord) : Bool := t.getLsbD 39

/-- `T[38:32]`. -/
def idxOf (t : TWord) : Idx := t.extractLsb' 32 7

/-- `T[31:0]`. -/
def dataOf (t : TWord) : Word := t.extractLsb' 0 32

/-- `WE :: IDX :: WDATA`. -/
def packWord (we : Bool) (idx : Idx) (data : Word) : TWord := BitVec.ofBool we ++ idx ++ data

/-- The canonical read of `idx`: `WDATA = 0` (30_encoding.md R101). -/
def readWord (idx : Idx) : TWord := packWord false idx 0

/-- The write of `data` to `idx`. -/
def writeWord (idx : Idx) (data : Word) : TWord := packWord true idx data

/-- The command `op`: a write to `CMD` (30_encoding.md R106, R110). -/
def commandWord (op : Byte) : TWord := writeWord Reg.cmd (commandData op)

/-! ## Decoding (30_encoding.md R112) -/

/-- The read map (30_encoding.md R104), selected by the index alone; every other index is `RD.ZERO` (R108). -/
def decodeRead (idx : Idx) : Instr :=
  if idx = Reg.id then .rdId
  else if idx = Reg.status then .rdStatus
  else if idx = Reg.ctrl then .rdCtrl
  else if idx = Reg.err then .rdErr
  else if idx = Reg.len then .rdLen
  else if idx = Reg.rem then .rdRem
  else if idx = Reg.cksum then .rdCksum
  else if idx = Reg.ckAcc then .rdCkAcc
  else if inGroup Reg.iv0 idx then .rdIv (wordNoOf idx)
  else if inGroup Reg.din0 idx then .rdDin (wordNoOf idx)
  else if inGroup Reg.dout0 idx then .rdDout (wordNoOf idx)
  else if inGroup Reg.cv0 idx then .rdCv (wordNoOf idx)
  else .rdZero idx

/-- The commands (30_encoding.md R106): the whole data word is matched; any other is illegal (R107 case 6). -/
def decodeCommand (data : Word) : Instr :=
  if data = commandData Opcode.nop then .nop
  else if data = commandData Opcode.ckInit then .ckInit
  else if data = commandData Opcode.cStart then .cStart
  else if data = commandData Opcode.cBlock then .cBlock
  else if data = commandData Opcode.cFinish then .cFinish
  else if data = commandData Opcode.cAbort then .cAbort
  else if data = commandData Opcode.keyClear then .keyClear
  else if data = commandData Opcode.eack then .eack
  else if data = commandData Opcode.srst then .srst
  else .wrIllegal Reg.cmd data

/-- The write map (30_encoding.md R105, R106) with its required-zero data bits (R103); every other write is illegal (R107). -/
def decodeWrite (idx : Idx) (data : Word) : Instr :=
  if idx = Reg.ctrl then
    if data &&& 0xFFFFFFF6 = 0 then .wrCtrl (Direction.ofBit (data.getLsbD 0)) (data.getLsbD 3) else .wrIllegal idx data
  else if idx = Reg.cmd then decodeCommand data
  else if idx = Reg.len then
    if data &&& 0xFFFF0000 = 0 then .wrLen (data.setWidth 16) else .wrIllegal idx data
  else if idx = Reg.ckData8 then
    if data &&& 0xFFFFFF00 = 0 then .wrCkData8 (data.setWidth 8) else .wrIllegal idx data
  else if idx = Reg.ckData32 then .wrCkData32 data
  else if idx = Reg.ckVerify then
    if data &&& 0xFFFF0000 = 0 then .wrCkVerify (data.setWidth 16) else .wrIllegal idx data
  else if inGroup Reg.key0 idx then .wrKey (wordNoOf idx) data
  else if inGroup Reg.iv0 idx then .wrIv (wordNoOf idx) data
  else if inGroup Reg.din0 idx then .wrDin (wordNoOf idx) data
  else .wrIllegal idx data

/-- Decoding of a transaction word, total (30_encoding.md R112). -/
def decodeWord (t : TWord) : Instr :=
  if weOf t then decodeWrite (idxOf t) (dataOf t) else decodeRead (idxOf t)

/-- Why a byte string holds no transaction word. -/
inductive DecodeError where
  /-- Fewer than the five bytes of a transaction word (30_encoding.md R101): how many there are. Safe: the block is given
  whole words only. -/
  | truncated (got : Nat)
  deriving DecidableEq, Repr

/-- The decoder on a byte string: a transaction word is stored as five bytes, most significant first (30_encoding.md
R101); the answer is the operation and the bytes after it. -/
def decode : List Byte → Except DecodeError (Instr × List Byte)
  | b4 :: b3 :: b2 :: b1 :: b0 :: rest => .ok (decodeWord (b4 ++ b3 ++ b2 ++ b1 ++ b0), rest)
  | bytes => .error (.truncated bytes.length)

/-- The five bytes of a transaction word, most significant first (30_encoding.md R101). -/
def bytesOfWord (t : TWord) : List Byte :=
  [t.extractLsb' 32 8, t.extractLsb' 24 8, t.extractLsb' 16 8, t.extractLsb' 8 8, t.extractLsb' 0 8]

/-! ## Encoding (30_encoding.md R104 to R106) -/

/-- The transaction word of an operation; a read's is canonical, `WDATA = 0`. -/
def encodeWord : Instr → TWord
  | .rdId => readWord Reg.id
  | .rdStatus => readWord Reg.status
  | .rdCtrl => readWord Reg.ctrl
  | .rdErr => readWord Reg.err
  | .rdLen => readWord Reg.len
  | .rdRem => readWord Reg.rem
  | .rdCksum => readWord Reg.cksum
  | .rdCkAcc => readWord Reg.ckAcc
  | .rdIv n => readWord (groupIdx Reg.iv0 n)
  | .rdDin n => readWord (groupIdx Reg.din0 n)
  | .rdDout n => readWord (groupIdx Reg.dout0 n)
  | .rdCv n => readWord (groupIdx Reg.cv0 n)
  | .wrCtrl dir tap => writeWord Reg.ctrl (ctrlData dir tap)
  | .wrLen len => writeWord Reg.len (len.setWidth 32)
  | .wrCkData8 byte => writeWord Reg.ckData8 (byte.setWidth 32)
  | .wrCkData32 word => writeWord Reg.ckData32 word
  | .wrCkVerify expect => writeWord Reg.ckVerify (expect.setWidth 32)
  | .wrKey n word => writeWord (groupIdx Reg.key0 n) word
  | .wrIv n word => writeWord (groupIdx Reg.iv0 n) word
  | .wrDin n word => writeWord (groupIdx Reg.din0 n) word
  | .nop => commandWord Opcode.nop
  | .ckInit => commandWord Opcode.ckInit
  | .cStart => commandWord Opcode.cStart
  | .cBlock => commandWord Opcode.cBlock
  | .cFinish => commandWord Opcode.cFinish
  | .cAbort => commandWord Opcode.cAbort
  | .keyClear => commandWord Opcode.keyClear
  | .eack => commandWord Opcode.eack
  | .srst => commandWord Opcode.srst
  | .rdZero idx => readWord idx
  | .wrIllegal idx data => writeWord idx data

/-- The stored form of an operation: five bytes, most significant first (30_encoding.md R101). -/
def encode (i : Instr) : List Byte := bytesOfWord (encodeWord i)

/-- The transaction word a table row's number stands for: its low `nbits` bits, every higher bit 0; none if it does not
fit 40 bits (log entry 14). -/
def tableWord (nbits w : Nat) : Option TWord :=
  if w % 2 ^ nbits < 2 ^ 40 then some (BitVec.ofNat 40 (w % 2 ^ nbits)) else none

/-- What the decoder reads from the word that spec/opcode_table.json numbers `w` (log entry 14). -/
def decodeTableWord (nbits w : Nat) : Option Instr :=
  match tableWord nbits w with
  | none => none
  | some t =>
    match decode (bytesOfWord t) with
    | .ok (i, _) => some i
    | .error _ => none

end Sys2Proof
end

