-- ==== Sys2Proof/Config.lean ====
section
/-! DEFINITION. The implementation parameters of the block (00_scope.md R6). No value of this hardware is left free by the
spec, so there is no opaque constant here. -/

namespace Sys2Proof.Config

/-- `ID_VALUE` (00_scope.md R2, R6; 10_state.md R30). -/
def idValue : Word := 0x464C3136

/-- `SEED`: the initial value of both accumulators (00_scope.md R6, 40_checksum.md R130). -/
def seed : Half := 0x00FF

/-- `FOLD_PERIOD`: bytes absorbed between forced folds (00_scope.md R6). -/
def foldPeriod : Nat := 20

/-- `BLOCK_BYTES`: the cipher block size (00_scope.md R6). -/
def blockBytes : Nat := 16

/-- `KEY_BYTES`: the key size of this hardware (00_scope.md R6). -/
def keyBytes : Nat := 16

/-- `PAD_FULL_BLOCK_WHEN_ALIGNED`: the spec's default for the open parameter of the HOST's padding (43_envelope_sequences.md
R265). The padding function takes the parameter as an argument; nothing in the block reads it (log entry 12). -/
def padFullBlockWhenAligned : Bool := false

end Sys2Proof.Config
end

