-- ==== Sys2Proof/Machine/State.lean ====
section
/-! DEFINITION. The state of the machine as plain data: the complete tuple of 10_state.md R21, grouped by the unit that
table names, and the host's side of the register port; the reasons a step could stop; the reset state (R48). -/

namespace Sys2Proof.Machine

/-- `CST`, the cipher sequencer's state (10_state.md R36): 0 is `IDLE`, 1 is `RUN`. -/
inductive CipherState where
  | idle
  | run
  deriving DecidableEq, Repr

/-- The checksum unit (10_state.md R24 to R26). -/
structure CkUnit where
  /-- `S1`, the first accumulator -/
  s1 : Half
  /-- `S2`, the second accumulator -/
  s2 : Half
  /-- `CNT`, the bytes absorbed since the last forced fold or seed -/
  cnt : BitVec 5
  deriving DecidableEq, Repr

/-- The cipher unit (10_state.md R27 to R29, R31 to R37). -/
structure CipherUnit where
  /-- `KEY`, bytes `KEY[0..15]`; write-only -/
  key : Block
  /-- `KMASK`, bit `n`: key word `n` written since reset, `SRST` or `KEY_CLEAR` -/
  kmask : BitVec 4
  /-- `IV`, bytes `IV[0..15]` -/
  iv : Block
  /-- `IMASK`, bit `n`: IV word `n` written since reset, `SRST` or the last `C_START` -/
  imask : BitVec 4
  /-- `DIN`, the block the next `C_BLOCK` processes -/
  din : Block
  /-- `DOUT`, the result of the last `C_BLOCK` -/
  dout : Block
  /-- `CV`, the chaining value -/
  cv : Block
  /-- `CTRL.DIR` -/
  dir : Direction
  /-- `CTRL.MODE`; only `00`, CBC, is legal -/
  mode : BitVec 2
  /-- `CTRL.TAP`: whether the plaintext of every block is absorbed by the checksum unit -/
  tap : Bool
  /-- `LEN`, the byte length of the next message -/
  len : Half
  /-- `REM`, the bytes of the current message not yet processed -/
  rem : Half
  /-- `CST` -/
  cst : CipherState
  /-- `DONE`: the last message was closed by a successful `C_FINISH` -/
  done : Bool
  deriving DecidableEq, Repr

/-- The fault the block holds, the fields of `ERR` (10_state.md R38). -/
structure FaultRecord where
  /-- `ECODE`, 0 when no fault is held -/
  ecode : BitVec 3
  /-- `EIDX`, the index of the faulting write -/
  eidx : Idx
  /-- `EOP`, the low data byte of the faulting write when it was to `CMD` -/
  eop : Byte
  deriving DecidableEq, Repr

/-- What the host does to the block: a transaction (30_encoding.md R100) or the platform's `Reset` (70_reset_and_hazards.md
R330); it has no other means of acting on it (42_system.md R220). -/
inductive HostEvent where
  /-- one transaction, as its 40-bit word -/
  | transaction (t : TWord)
  /-- the platform's `Reset` -/
  | reset
  deriving DecidableEq, Repr

/-- The host's side of the register port: the MODEL's own fields, not the block's state (log entries 1 and 2). -/
structure Port where
  /-- the events the host issues from now on, in issue order (20_memory.md R80) -/
  pending : List HostEvent
  /-- the `rdata` values of the reads so far, oldest first (42_system.md R220) -/
  rdata : List Word
  deriving DecidableEq, Repr

/-- The state of the machine. -/
structure State where
  /-- the checksum unit -/
  ck : CkUnit
  /-- the cipher unit -/
  cipher : CipherUnit
  /-- the fault record -/
  err : FaultRecord
  /-- the host's side of the port -/
  port : Port
  deriving DecidableEq, Repr

/-- The reasons a step stops with a fault of the MODEL: none. The faults of 60_exceptions.md are next states (R296), and
every one of the 2^40 transaction words has a defined effect in every state (30_encoding.md R100), so nobody raises one.
Safe: there is no stop to be wrong about (log entry 9). -/
inductive Fault where
  deriving DecidableEq, Repr

/-- The reasons an operation is refused. -/
inductive Refusal where
  /-- Raised by an arm of `exec` whose operation, named as spec/opcode_table.json names it, has no meaning in the model;
  every operation has one, so no arm raises it. Safe: the machine stops. -/
  | notModelled (mnemonic : String)
  deriving DecidableEq, Repr

/-- The checksum unit seeded (10_state.md R48, 40_checksum.md R140). -/
def CkUnit.seeded : CkUnit where
  s1 := Config.seed
  s2 := Config.seed
  cnt := 0

/-- The cipher unit after reset (10_state.md R48). -/
def CipherUnit.cleared : CipherUnit where
  key := Block.zero
  kmask := 0
  iv := Block.zero
  imask := 0
  din := Block.zero
  dout := Block.zero
  cv := Block.zero
  dir := .encrypt
  mode := 0
  tap := false
  len := 0
  rem := 0
  cst := .idle
  done := false

/-- No fault held (10_state.md R48). -/
def FaultRecord.none : FaultRecord where
  ecode := 0
  eidx := 0
  eop := 0

/-- The machine right after reset (10_state.md R48, 70_reset_and_hazards.md R331). The host has issued nothing yet and has
read nothing (log entries 1 and 2). -/
def State.reset : State where
  ck := CkUnit.seeded
  cipher := CipherUnit.cleared
  err := FaultRecord.none
  port := { pending := [], rdata := [] }

end Sys2Proof.Machine
end

