-- ==== Sys2Proof/Machine/Operands.lean ====
section
/-! DEFINITION. Operand forms and byte order: the bytes of a word, the words and bytes of a 16-byte string, the masks of a
register group, and the 32-bit views that the reads of packed registers return. -/

namespace Sys2Proof.Machine

/-! ## Bytes and words (20_memory.md R72) -/

/-- Byte `j` of a register word, bits `8j+7:8j`. -/
def byteOf (w : Word) (j : Fin 4) : Byte := w.extractLsb' (8 * j.val) 8

/-- The register word whose bytes 0 to 3 are `b0` to `b3`: the little-endian 32-bit integer made of them. -/
def wordOfBytes (b0 b1 b2 b3 : Byte) : Word := b3 ++ b2 ++ b1 ++ b0

/-- The four bytes of a word, byte 0 first. -/
def bytesOf (w : Word) : List Byte := [byteOf w 0, byteOf w 1, byteOf w 2, byteOf w 3]

/-- `Xn`, register `n` of a group. -/
def blockWord (b : Block) : WordNo → Word
  | 0 => b.x0
  | 1 => b.x1
  | 2 => b.x2
  | 3 => b.x3

/-- `Xn <- w`. -/
def setBlockWord (b : Block) (n : WordNo) (w : Word) : Block :=
  match n with
  | 0 => { b with x0 := w }
  | 1 => { b with x1 := w }
  | 2 => { b with x2 := w }
  | 3 => { b with x3 := w }

/-- `B[i]`: with `i = 4n + j`, byte `j` of `Xn` (00_scope.md R8). -/
def blockByte (b : Block) (i : Fin 16) : Byte :=
  byteOf (blockWord b (Fin.ofNat 4 (i.val / 4))) (Fin.ofNat 4 (i.val % 4))

/-- `bytes(X)`: `B[0..15]` in order (00_scope.md R8). -/
def blockBytes (b : Block) : List Byte := bytesOf b.x0 ++ bytesOf b.x1 ++ bytesOf b.x2 ++ bytesOf b.x3

/-- `words(B)`: the four registers of a byte string (00_scope.md R8), its bytes past the end read as 0. -/
def blockOfBytes (bs : List Byte) : Block where
  x0 := wordOfBytes (bs.getD 0 0) (bs.getD 1 0) (bs.getD 2 0) (bs.getD 3 0)
  x1 := wordOfBytes (bs.getD 4 0) (bs.getD 5 0) (bs.getD 6 0) (bs.getD 7 0)
  x2 := wordOfBytes (bs.getD 8 0) (bs.getD 9 0) (bs.getD 10 0) (bs.getD 11 0)
  x3 := wordOfBytes (bs.getD 12 0) (bs.getD 13 0) (bs.getD 14 0) (bs.getD 15 0)

/-- The bytewise exclusive or of two blocks (41_cipher.md R168). -/
def blockXor (a b : Block) : Block where
  x0 := a.x0 ^^^ b.x0
  x1 := a.x1 ^^^ b.x1
  x2 := a.x2 ^^^ b.x2
  x3 := a.x3 ^^^ b.x3

/-! ## Written masks (10_state.md R27, R28) -/

/-- The mask with bit `n` set. -/
def setMaskBit (m : BitVec 4) (n : WordNo) : BitVec 4 := m ||| (1#4 <<< n.val)

/-! ## Packed registers -/

/-- `CTRL` as read: `TAP :: MODE :: DIR` (10_state.md R33, 42_system.md R225). -/
def ctrlView (c : CipherUnit) : Word :=
  (BitVec.ofBool c.tap ++ c.mode ++ BitVec.ofBool c.dir.toBit).setWidth 32

/-- `ERR` as read: `EOP :: 0 :: EIDX :: 00000 :: ECODE` (10_state.md R38, 42_system.md R226). -/
def errView (e : FaultRecord) : Word := (e.eop ++ 0#1 ++ e.eidx ++ 0#5 ++ e.ecode).setWidth 32

/-- `CK_ACC` as read: `S2 :: S1` (10_state.md R41, 40_checksum.md R143). -/
def accView (k : CkUnit) : Word := k.s2 ++ k.s1

end Sys2Proof.Machine
end

