-- ==== Sys2Proof/Machine/Aes.lean ====
section
/-! DEFINITION. The block cipher primitive, AES (41_cipher.md R179 to R189). The 16-byte AES state is a `Block`: its column
`c` is register word `c`, and the byte at row `r` of column `c` is byte `r` of that word, since `s[r + 4c]` is `B[4c + r]`
(R180, 20_memory.md R72). A schedule word `w[i]` is the register word of its bytes `w[i][0..3]`. -/

namespace Sys2Proof.Machine

/-! ## GF(2^8) (41_cipher.md R180) -/

/-- `xtime(a)`. -/
def xtime (a : Byte) : Byte := (a <<< 1) ^^^ (if a.getLsbD 7 then 0x1B#8 else 0#8)

/-- `xtime` applied `i` times. -/
def xtimes : Nat → Byte → Byte
  | 0, a => a
  | i + 1, a => xtime (xtimes i a)

/-- The product `a • b`: the sum over the set bits `i` of `b` of `xtime` applied `i` times to `a`. -/
def gmul (a b : Byte) : Byte :=
  (List.range 8).foldl (fun acc i => if b.getLsbD i then acc ^^^ xtimes i a else acc) 0#8

/-! ## S-boxes (41_cipher.md R183, R184) -/

/-- The entry `a = 16*row + column` of a table of sixteen rows. -/
def tableEntry (rows : List (List Byte)) (a : Byte) : Byte := (rows.getD (a.toNat / 16) []).getD (a.toNat % 16) 0

/-- The rows of `SBOX` (41_cipher.md R183). -/
def sboxRows : List (List Byte) :=
  [
    [0x63, 0x7C, 0x77, 0x7B, 0xF2, 0x6B, 0x6F, 0xC5, 0x30, 0x01, 0x67, 0x2B, 0xFE, 0xD7, 0xAB, 0x76],
    [0xCA, 0x82, 0xC9, 0x7D, 0xFA, 0x59, 0x47, 0xF0, 0xAD, 0xD4, 0xA2, 0xAF, 0x9C, 0xA4, 0x72, 0xC0],
    [0xB7, 0xFD, 0x93, 0x26, 0x36, 0x3F, 0xF7, 0xCC, 0x34, 0xA5, 0xE5, 0xF1, 0x71, 0xD8, 0x31, 0x15],
    [0x04, 0xC7, 0x23, 0xC3, 0x18, 0x96, 0x05, 0x9A, 0x07, 0x12, 0x80, 0xE2, 0xEB, 0x27, 0xB2, 0x75],
    [0x09, 0x83, 0x2C, 0x1A, 0x1B, 0x6E, 0x5A, 0xA0, 0x52, 0x3B, 0xD6, 0xB3, 0x29, 0xE3, 0x2F, 0x84],
    [0x53, 0xD1, 0x00, 0xED, 0x20, 0xFC, 0xB1, 0x5B, 0x6A, 0xCB, 0xBE, 0x39, 0x4A, 0x4C, 0x58, 0xCF],
    [0xD0, 0xEF, 0xAA, 0xFB, 0x43, 0x4D, 0x33, 0x85, 0x45, 0xF9, 0x02, 0x7F, 0x50, 0x3C, 0x9F, 0xA8],
    [0x51, 0xA3, 0x40, 0x8F, 0x92, 0x9D, 0x38, 0xF5, 0xBC, 0xB6, 0xDA, 0x21, 0x10, 0xFF, 0xF3, 0xD2],
    [0xCD, 0x0C, 0x13, 0xEC, 0x5F, 0x97, 0x44, 0x17, 0xC4, 0xA7, 0x7E, 0x3D, 0x64, 0x5D, 0x19, 0x73],
    [0x60, 0x81, 0x4F, 0xDC, 0x22, 0x2A, 0x90, 0x88, 0x46, 0xEE, 0xB8, 0x14, 0xDE, 0x5E, 0x0B, 0xDB],
    [0xE0, 0x32, 0x3A, 0x0A, 0x49, 0x06, 0x24, 0x5C, 0xC2, 0xD3, 0xAC, 0x62, 0x91, 0x95, 0xE4, 0x79],
    [0xE7, 0xC8, 0x37, 0x6D, 0x8D, 0xD5, 0x4E, 0xA9, 0x6C, 0x56, 0xF4, 0xEA, 0x65, 0x7A, 0xAE, 0x08],
    [0xBA, 0x78, 0x25, 0x2E, 0x1C, 0xA6, 0xB4, 0xC6, 0xE8, 0xDD, 0x74, 0x1F, 0x4B, 0xBD, 0x8B, 0x8A],
    [0x70, 0x3E, 0xB5, 0x66, 0x48, 0x03, 0xF6, 0x0E, 0x61, 0x35, 0x57, 0xB9, 0x86, 0xC1, 0x1D, 0x9E],
    [0xE1, 0xF8, 0x98, 0x11, 0x69, 0xD9, 0x8E, 0x94, 0x9B, 0x1E, 0x87, 0xE9, 0xCE, 0x55, 0x28, 0xDF],
    [0x8C, 0xA1, 0x89, 0x0D, 0xBF, 0xE6, 0x42, 0x68, 0x41, 0x99, 0x2D, 0x0F, 0xB0, 0x54, 0xBB, 0x16]
  ]

/-- The rows of `INV_SBOX` (41_cipher.md R184). -/
def invSboxRows : List (List Byte) :=
  [
    [0x52, 0x09, 0x6A, 0xD5, 0x30, 0x36, 0xA5, 0x38, 0xBF, 0x40, 0xA3, 0x9E, 0x81, 0xF3, 0xD7, 0xFB],
    [0x7C, 0xE3, 0x39, 0x82, 0x9B, 0x2F, 0xFF, 0x87, 0x34, 0x8E, 0x43, 0x44, 0xC4, 0xDE, 0xE9, 0xCB],
    [0x54, 0x7B, 0x94, 0x32, 0xA6, 0xC2, 0x23, 0x3D, 0xEE, 0x4C, 0x95, 0x0B, 0x42, 0xFA, 0xC3, 0x4E],
    [0x08, 0x2E, 0xA1, 0x66, 0x28, 0xD9, 0x24, 0xB2, 0x76, 0x5B, 0xA2, 0x49, 0x6D, 0x8B, 0xD1, 0x25],
    [0x72, 0xF8, 0xF6, 0x64, 0x86, 0x68, 0x98, 0x16, 0xD4, 0xA4, 0x5C, 0xCC, 0x5D, 0x65, 0xB6, 0x92],
    [0x6C, 0x70, 0x48, 0x50, 0xFD, 0xED, 0xB9, 0xDA, 0x5E, 0x15, 0x46, 0x57, 0xA7, 0x8D, 0x9D, 0x84],
    [0x90, 0xD8, 0xAB, 0x00, 0x8C, 0xBC, 0xD3, 0x0A, 0xF7, 0xE4, 0x58, 0x05, 0xB8, 0xB3, 0x45, 0x06],
    [0xD0, 0x2C, 0x1E, 0x8F, 0xCA, 0x3F, 0x0F, 0x02, 0xC1, 0xAF, 0xBD, 0x03, 0x01, 0x13, 0x8A, 0x6B],
    [0x3A, 0x91, 0x11, 0x41, 0x4F, 0x67, 0xDC, 0xEA, 0x97, 0xF2, 0xCF, 0xCE, 0xF0, 0xB4, 0xE6, 0x73],
    [0x96, 0xAC, 0x74, 0x22, 0xE7, 0xAD, 0x35, 0x85, 0xE2, 0xF9, 0x37, 0xE8, 0x1C, 0x75, 0xDF, 0x6E],
    [0x47, 0xF1, 0x1A, 0x71, 0x1D, 0x29, 0xC5, 0x89, 0x6F, 0xB7, 0x62, 0x0E, 0xAA, 0x18, 0xBE, 0x1B],
    [0xFC, 0x56, 0x3E, 0x4B, 0xC6, 0xD2, 0x79, 0x20, 0x9A, 0xDB, 0xC0, 0xFE, 0x78, 0xCD, 0x5A, 0xF4],
    [0x1F, 0xDD, 0xA8, 0x33, 0x88, 0x07, 0xC7, 0x31, 0xB1, 0x12, 0x10, 0x59, 0x27, 0x80, 0xEC, 0x5F],
    [0x60, 0x51, 0x7F, 0xA9, 0x19, 0xB5, 0x4A, 0x0D, 0x2D, 0xE5, 0x7A, 0x9F, 0x93, 0xC9, 0x9C, 0xEF],
    [0xA0, 0xE0, 0x3B, 0x4D, 0xAE, 0x2A, 0xF5, 0xB0, 0xC8, 0xEB, 0xBB, 0x3C, 0x83, 0x53, 0x99, 0x61],
    [0x17, 0x2B, 0x04, 0x7E, 0xBA, 0x77, 0xD6, 0x26, 0xE1, 0x69, 0x14, 0x63, 0x55, 0x21, 0x0C, 0x7D]
  ]

/-- `SBOX[a]`. -/
def sbox (a : Byte) : Byte := tableEntry sboxRows a

/-- `INV_SBOX[a]`. -/
def invSbox (a : Byte) : Byte := tableEntry invSboxRows a

/-! ## Steps on one column or schedule word -/

/-- `f` on each of the four bytes of a word. -/
def mapBytes (f : Byte → Byte) (w : Word) : Word :=
  wordOfBytes (f (byteOf w 0)) (f (byteOf w 1)) (f (byteOf w 2)) (f (byteOf w 3))

/-- `RotWord`: `(t[1], t[2], t[3], t[0])` (41_cipher.md R182). -/
def rotWord (t : Word) : Word := wordOfBytes (byteOf t 1) (byteOf t 2) (byteOf t 3) (byteOf t 0)

/-- `SubWord` (41_cipher.md R182). -/
def subWord (t : Word) : Word := mapBytes sbox t

/-- `RCON[j]`: `xtime` applied `j - 1` times to `0x01` (41_cipher.md R182). -/
def rcon (j : Nat) : Byte := xtimes (j - 1) 0x01#8

/-- One row of a column product: `c0•a0 ^ c1•a1 ^ c2•a2 ^ c3•a3` (41_cipher.md R186). -/
def rowProduct (c0 c1 c2 c3 : Byte) (a : Word) : Byte :=
  gmul c0 (byteOf a 0) ^^^ gmul c1 (byteOf a 1) ^^^ gmul c2 (byteOf a 2) ^^^ gmul c3 (byteOf a 3)

/-- `MixColumns` on one column (41_cipher.md R186). -/
def mixColumn (a : Word) : Word :=
  wordOfBytes (rowProduct 2 3 1 1 a) (rowProduct 1 2 3 1 a) (rowProduct 1 1 2 3 a) (rowProduct 3 1 1 2 a)

/-- `InvMixColumns` on one column (41_cipher.md R186). -/
def invMixColumn (a : Word) : Word :=
  wordOfBytes (rowProduct 14 11 13 9 a) (rowProduct 9 14 11 13 a) (rowProduct 13 9 14 11 a) (rowProduct 11 13 9 14 a)

/-! ## Steps on the state (41_cipher.md R185 to R187) -/

/-- `f` on each column. -/
def mapColumns (f : Word → Word) (s : Block) : Block := ⟨f s.x0, f s.x1, f s.x2, f s.x3⟩

/-- `SubBytes`. -/
def subBytes (s : Block) : Block := mapColumns (mapBytes sbox) s

/-- `InvSubBytes`. -/
def invSubBytes (s : Block) : Block := mapColumns (mapBytes invSbox) s

/-- The column whose row `r` is row `r` of the `r`-th argument. -/
def diagonal (c0 c1 c2 c3 : Word) : Word := wordOfBytes (byteOf c0 0) (byteOf c1 1) (byteOf c2 2) (byteOf c3 3)

/-- `ShiftRows`: row `r` of column `c` is row `r` of column `(c + r) % 4`. -/
def shiftRows (s : Block) : Block where
  x0 := diagonal s.x0 s.x1 s.x2 s.x3
  x1 := diagonal s.x1 s.x2 s.x3 s.x0
  x2 := diagonal s.x2 s.x3 s.x0 s.x1
  x3 := diagonal s.x3 s.x0 s.x1 s.x2

/-- `InvShiftRows`: row `r` of column `c` is row `r` of column `(c - r) % 4`. -/
def invShiftRows (s : Block) : Block where
  x0 := diagonal s.x0 s.x3 s.x2 s.x1
  x1 := diagonal s.x1 s.x0 s.x3 s.x2
  x2 := diagonal s.x2 s.x1 s.x0 s.x3
  x3 := diagonal s.x3 s.x2 s.x1 s.x0

/-- `MixColumns`. -/
def mixColumns (s : Block) : Block := mapColumns mixColumn s

/-- `InvMixColumns`. -/
def invMixColumns (s : Block) : Block := mapColumns invMixColumn s

/-! ## Key expansion (41_cipher.md R181, R182) -/

/-- `t` of the key expansion at word `i`, from `w[i-1]`. -/
def scheduleTemp (nk i : Nat) (prev : Word) : Word :=
  if i % nk = 0 then subWord (rotWord prev) ^^^ wordOfBytes (rcon (i / nk)) 0 0 0
  else if 6 < nk ∧ i % nk = 4 then subWord prev
  else prev

/-- `count` more words `w[i] = w[i-Nk] ^ t` after the words `w` already made. -/
def extendSchedule (nk : Nat) : Nat → List Word → List Word
  | 0, w => w
  | count + 1, w =>
    extendSchedule nk count
      (w ++ [w.getD (w.length - nk) 0 ^^^ scheduleTemp nk w.length (w.getD (w.length - 1) 0)])

/-- `Nr = Nk + 6` (41_cipher.md R181). -/
def roundsOf (nk : Nat) : Nat := nk + 6

/-- The schedule of `4 * (Nr + 1)` words of a key of `Nk` words (41_cipher.md R181, R182). -/
def keyExpansion (key : List Word) : List Word :=
  extendSchedule key.length (4 * (roundsOf key.length + 1) - key.length) key

/-- The four schedule words of a round. -/
def roundKey (w : List Word) (round : Nat) : Block :=
  ⟨w.getD (4 * round) 0, w.getD (4 * round + 1) 0, w.getD (4 * round + 2) 0, w.getD (4 * round + 3) 0⟩

/-- `AddRoundKey` (41_cipher.md R187). -/
def addRoundKey (w : List Word) (round : Nat) (s : Block) : Block := blockXor s (roundKey w round)

/-! ## The cipher and its inverse (41_cipher.md R188, R189) -/

/-- The rounds `1 .. r`, each with `MixColumns`, in that order. -/
def encRounds (w : List Word) : Nat → Block → Block
  | 0, s => s
  | r + 1, s => addRoundKey w (r + 1) (mixColumns (shiftRows (subBytes (encRounds w r s))))

/-- The rounds `r` down to `1`, each with `InvMixColumns`, in that order. -/
def decRounds (w : List Word) : Nat → Block → Block
  | 0, s => s
  | r + 1, s => decRounds w r (invMixColumns (addRoundKey w (r + 1) (invSubBytes (invShiftRows s))))

/-- `Cipher` under a key of `Nk` words (41_cipher.md R188). -/
def aesEncrypt (key : List Word) (b : Block) : Block :=
  addRoundKey (keyExpansion key) (roundsOf key.length)
    (shiftRows (subBytes (encRounds (keyExpansion key) (roundsOf key.length - 1)
      (addRoundKey (keyExpansion key) 0 b))))

/-- `InvCipher` under a key of `Nk` words (41_cipher.md R189). -/
def aesDecrypt (key : List Word) (b : Block) : Block :=
  addRoundKey (keyExpansion key) 0
    (invSubBytes (invShiftRows (decRounds (keyExpansion key) (roundsOf key.length - 1)
      (addRoundKey (keyExpansion key) (roundsOf key.length) b))))

/-- The key words of this hardware's 16-byte key: `w[i] = (k[4i], .., k[4i+3])` is register word `i` (41_cipher.md R182). -/
def keyWords (k : Block) : List Word := [k.x0, k.x1, k.x2, k.x3]

/-- `BlockEnc(k, b)`: AES-128 (41_cipher.md R179, R188; log entry 7). -/
def blockEnc (k b : Block) : Block := aesEncrypt (keyWords k) b

/-- `BlockDec(k, b)`: AES-128 (41_cipher.md R179, R189; log entry 7). -/
def blockDec (k b : Block) : Block := aesDecrypt (keyWords k) b

end Sys2Proof.Machine
end

