-- ==== Sys2Proof/Machine/Flags.lean ====
section
/-! DEFINITION. The five status flags and the `STATUS` view (10_state.md R39, R43). There are no arithmetic condition codes
(R43). -/

namespace Sys2Proof.Machine

/-- `CRUN`: `CST = RUN`. -/
def running (c : CipherUnit) : Bool := decide (c.cst = .run)

/-- `KEYV`: `KMASK = 0b1111`. -/
def keyValid (c : CipherUnit) : Bool := c.kmask == 0b1111#4

/-- `IVV`: `IMASK = 0b1111`. -/
def ivValid (c : CipherUnit) : Bool := c.imask == 0b1111#4

/-- `FAULT`: `ECODE != 0`, the faulted state (60_exceptions.md R297). -/
def faulted (e : FaultRecord) : Bool := e.ecode != 0#3

/-- `STATUS` as read: `CNT :: 000 :: FAULT :: DONE :: IVV :: KEYV :: CRUN` (10_state.md R39, 42_system.md R224). -/
def statusView (k : CkUnit) (c : CipherUnit) (e : FaultRecord) : Word :=
  (k.cnt ++ 0#3 ++ BitVec.ofBool (faulted e) ++ BitVec.ofBool c.done ++ BitVec.ofBool (ivValid c) ++
    BitVec.ofBool (keyValid c) ++ BitVec.ofBool (running c)).setWidth 32

end Sys2Proof.Machine
end

