-- ==== Sys2Proof/Machine/Fletcher.lean ====
section
/-! DEFINITION. The periodic-fold Fletcher-16 of the checksum unit (40_checksum.md R130 to R136), as written there. -/

namespace Sys2Proof.Machine

/-- `Fold1(s) = (s & 0xFF) + (s >> 8)` (40_checksum.md R132). -/
def fold1 (s : Half) : Half := (s &&& 0xFF) + (s >>> 8)

/-- `Fold8(s)`: `Fold1`, a second time if the first result exceeds `0xFF` (40_checksum.md R132). -/
def fold8 (s : Half) : Half := if 0xFF#16 < fold1 s then fold1 (fold1 s) else fold1 s

/-- `S1`, then `S2` with the new `S1`, then `CNT` (40_checksum.md R131, before the conditional fold). The additions are
exact in every reachable state (R135; log entry 5). -/
def addByte (k : CkUnit) (b : Byte) : CkUnit where
  s1 := k.s1 + b.setWidth 16
  s2 := k.s2 + (k.s1 + b.setWidth 16)
  cnt := k.cnt + 1

/-- The forced fold when the period is full (40_checksum.md R131, R133). -/
def foldIfDue (k : CkUnit) : CkUnit :=
  if k.cnt.toNat = Config.foldPeriod then { s1 := fold8 k.s1, s2 := fold8 k.s2, cnt := 0 } else k

/-- `Absorb(b)` (40_checksum.md R131). -/
def absorb (k : CkUnit) (b : Byte) : CkUnit := foldIfDue (addByte k b)

/-- Bytes absorbed one after the other, in order (40_checksum.md R130, R139; 41_cipher.md R175). -/
def absorbAll (k : CkUnit) (bs : List Byte) : CkUnit := bs.foldl absorb k

/-- `Cksum() = (Fold8(S2) << 8) | Fold8(S1)` (40_checksum.md R134). -/
def cksum (k : CkUnit) : Half := (fold8 k.s2 <<< 8) ||| fold8 k.s1

/-- `checksum(b[0..n-1])`, the function the unit computes (40_checksum.md R130). -/
def checksum (bs : List Byte) : Half := cksum (absorbAll CkUnit.seeded bs)

end Sys2Proof.Machine
end

