-- ==== Sys2Proof/Machine/Ops.lean ====
section
/-! DEFINITION. The named operations of the machine: what a read returns, which writes are accepted, taking a fault and
returning from one, reset, the sequencer's guards, and the updates of the cipher unit. -/

namespace Sys2Proof.Machine

/-! ## Updates of one unit -/

/-- The state with its checksum unit replaced. -/
def State.withCk (s : State) (k : CkUnit) : State := { s with ck := k }

/-- The state with its cipher unit replaced. -/
def State.withCipher (s : State) (c : CipherUnit) : State := { s with cipher := c }

/-- The state with its fault record replaced. -/
def State.withErr (s : State) (e : FaultRecord) : State := { s with err := e }

/-- The state with the host's side of the port replaced. -/
def State.withPort (s : State) (p : Port) : State := { s with port := p }

/-! ## Reads (42_system.md R221) -/

/-- A read returns `v` to the host and changes nothing of the block's state (42_system.md R220, R221; log entry 2). -/
def returnRead (v : Word) (s : State) : State := s.withPort { s.port with rdata := s.port.rdata ++ [v] }

/-- `MemRead(idx, 4)`: the register map as a host reads it, index by index (10_state.md R45, 42_system.md R221). Write-only
and reserved indices read 0 (30_encoding.md R108). -/
def memRead (idx : Idx) (s : State) : Word :=
  match idx.toNat with
  | 0x00 => Config.idValue
  | 0x01 => statusView s.ck s.cipher s.err
  | 0x02 => ctrlView s.cipher
  | 0x04 => errView s.err
  | 0x05 => s.cipher.len.setWidth 32
  | 0x06 => s.cipher.rem.setWidth 32
  | 0x0A => (cksum s.ck).setWidth 32
  | 0x0C => accView s.ck
  | 0x18 => s.cipher.iv.x0
  | 0x19 => s.cipher.iv.x1
  | 0x1A => s.cipher.iv.x2
  | 0x1B => s.cipher.iv.x3
  | 0x1C => s.cipher.din.x0
  | 0x1D => s.cipher.din.x1
  | 0x1E => s.cipher.din.x2
  | 0x1F => s.cipher.din.x3
  | 0x20 => s.cipher.dout.x0
  | 0x21 => s.cipher.dout.x1
  | 0x22 => s.cipher.dout.x2
  | 0x23 => s.cipher.dout.x3
  | 0x24 => s.cipher.cv.x0
  | 0x25 => s.cipher.cv.x1
  | 0x26 => s.cipher.cv.x2
  | 0x27 => s.cipher.cv.x3
  | _ => 0

/-! ## Faults (60_exceptions.md) -/

/-- The five fault codes (60_exceptions.md R290). -/
inductive FaultCode where
  | illegal
  | config
  | framing
  | integrity
  | sequence
  deriving DecidableEq, Repr

/-- The number a fault code is recorded as in `ECODE` (10_state.md R38, 60_exceptions.md R290). -/
def FaultCode.toBits : FaultCode → BitVec 3
  | .illegal => 1
  | .config => 2
  | .framing => 3
  | .integrity => 4
  | .sequence => 5

/-- TAKING A FAULT, `raise Fault(code)` in the write of `data` to `idx` (60_exceptions.md R296): the record is written and
nothing else; `EOP` is the low data byte if the write was to `CMD`, else 0. -/
def raiseFault (code : FaultCode) (idx : Idx) (data : Word) (s : State) : State :=
  s.withErr { ecode := code.toBits, eidx := idx, eop := if idx = Reg.cmd then data.setWidth 8 else 0 }

/-- RETURN FROM A FAULT (60_exceptions.md R298, 42_system.md R231): the record is cleared and nothing else. -/
def ackFault (s : State) : State := s.withErr FaultRecord.none

/-- A write that the faulted state ignores (60_exceptions.md R297; 42_system.md R220): when no fault is held it does `f`,
otherwise nothing at all (log entry 4). -/
def acceptWrite (s : State) (f : State → State) : State := if faulted s.err then s else f s

/-! ## Reset (10_state.md R48, 70_reset_and_hazards.md R330) -/

/-- Every piece of the block's state takes its reset value; the host's side of the port is not the block's (log entry 3). -/
def resetBlock (s : State) : State := State.reset.withPort s.port

/-! ## The sequencer's guards (41_cipher.md R160) -/

/-- An operation allowed only in `IDLE`: in `RUN` the write of `data` to `idx` raises `SEQUENCE`. -/
def whenIdle (idx : Idx) (data : Word) (s : State) (f : State → State) : State :=
  if running s.cipher then raiseFault .sequence idx data s else f s

/-- A command allowed only in `RUN`: in `IDLE` it raises `SEQUENCE`. -/
def whenRunning (op : Byte) (s : State) (f : State → State) : State :=
  if running s.cipher then f s else raiseFault .sequence Reg.cmd (commandData op) s

/-! ## Updates of the cipher unit -/

/-- `KEYn <- w`, `KMASK[n] <- 1` (41_cipher.md R161). -/
def CipherUnit.writeKey (c : CipherUnit) (n : WordNo) (w : Word) : CipherUnit :=
  { c with key := setBlockWord c.key n w, kmask := setMaskBit c.kmask n }

/-- `IVn <- w`, `IMASK[n] <- 1` (41_cipher.md R163). -/
def CipherUnit.writeIv (c : CipherUnit) (n : WordNo) (w : Word) : CipherUnit :=
  { c with iv := setBlockWord c.iv n w, imask := setMaskBit c.imask n }

/-- `DINn <- w` (41_cipher.md R165). -/
def CipherUnit.writeDin (c : CipherUnit) (n : WordNo) (w : Word) : CipherUnit := { c with din := setBlockWord c.din n w }

/-- `KEY <- 0`, `KMASK <- 0` (41_cipher.md R162). -/
def CipherUnit.clearKey (c : CipherUnit) : CipherUnit := { c with key := Block.zero, kmask := 0 }

/-- `DIR`, `MODE <- 00`, `TAP` (42_system.md R234). -/
def CipherUnit.setCtrl (c : CipherUnit) (dir : Direction) (tap : Bool) : CipherUnit :=
  { c with dir := dir, mode := 0, tap := tap }

/-- `LEN <- v` (42_system.md R235). -/
def CipherUnit.setLen (c : CipherUnit) (v : Half) : CipherUnit := { c with len := v }

/-- A message is opened: `CV <- IV`, `REM <- LEN`, `CST <- RUN`, `IMASK <- 0`, `DONE <- 0` (41_cipher.md R166). -/
def CipherUnit.openMessage (c : CipherUnit) : CipherUnit :=
  { c with cv := c.iv, rem := c.len, cst := .run, imask := 0, done := false }

/-- A message is closed: `CST <- IDLE`, `DONE <- 1` (41_cipher.md R173). -/
def CipherUnit.closeMessage (c : CipherUnit) : CipherUnit := { c with cst := .idle, done := true }

/-- A message is left: `CST <- IDLE` (41_cipher.md R174). -/
def CipherUnit.leaveMessage (c : CipherUnit) : CipherUnit := { c with cst := .idle }

/-! ## One block of a message (41_cipher.md R168, R171, R172) -/

/-- `Y`: `BlockEnc(KEY, DIN xor CV)` when encrypting, `BlockDec(KEY, DIN) xor CV` when decrypting. -/
def CipherUnit.blockResult (c : CipherUnit) : Block :=
  match c.dir with
  | .encrypt => blockEnc c.key (blockXor c.din c.cv)
  | .decrypt => blockXor (blockDec c.key c.din) c.cv

/-- The next chaining value: the ciphertext block, that is the output when encrypting, the input when decrypting. -/
def CipherUnit.nextChain (c : CipherUnit) : Block :=
  match c.dir with
  | .encrypt => c.blockResult
  | .decrypt => c.din

/-- `P`, the plaintext side of the block: the input when encrypting, the output when decrypting. -/
def CipherUnit.plaintext (c : CipherUnit) : Block :=
  match c.dir with
  | .encrypt => c.din
  | .decrypt => c.blockResult

/-- `DOUT <- Y`, `CV` advanced, `REM <- REM - 16` (41_cipher.md R168, R170). -/
def CipherUnit.processBlock (c : CipherUnit) : CipherUnit :=
  { c with dout := c.blockResult, cv := c.nextChain, rem := c.rem - 16 }

/-- The tap: with `TAP = 1` the sixteen plaintext bytes of the block are absorbed in order (41_cipher.md R175). -/
def tapBlock (k : CkUnit) (c : CipherUnit) : CkUnit := if c.tap then absorbAll k (blockBytes c.plaintext) else k

end Sys2Proof.Machine
end

