-- ==== Sys2Proof/Machine/System.lean ====
section
/-! DEFINITION. The meanings of the register access and system operations (42_system.md R223 to R235). -/

namespace Sys2Proof.Machine

/-- What a meaning answers. -/
abbrev Result := Host.Outcome State Fault Refusal

/-- `RD.ID` (42_system.md R223). -/
def execRdId (s : State) : Result := .next (returnRead Config.idValue s)

/-- `RD.STATUS` (42_system.md R224). -/
def execRdStatus (s : State) : Result := .next (returnRead (statusView s.ck s.cipher s.err) s)

/-- `RD.CTRL` (42_system.md R225). -/
def execRdCtrl (s : State) : Result := .next (returnRead (ctrlView s.cipher) s)

/-- `RD.ERR` (42_system.md R226); the fault is not acknowledged. -/
def execRdErr (s : State) : Result := .next (returnRead (errView s.err) s)

/-- `RD.LEN` (42_system.md R227). -/
def execRdLen (s : State) : Result := .next (returnRead (s.cipher.len.setWidth 32) s)

/-- `RD.REM` (42_system.md R228). -/
def execRdRem (s : State) : Result := .next (returnRead (s.cipher.rem.setWidth 32) s)

/-- `RD.ZERO`, a read of an index that names no readable register, the key words among them (42_system.md R229). -/
def execRdZero (_idx : Idx) (s : State) : Result := .next (returnRead 0 s)

/-- `WR.CTRL` (42_system.md R234). The `ILLEGAL` half of the rule is the decoder's (log entry 6). -/
def execWrCtrl (dir : Direction) (tap : Bool) (s : State) : Result :=
  .next (acceptWrite s fun s =>
    whenIdle Reg.ctrl (ctrlData dir tap) s fun s => s.withCipher (s.cipher.setCtrl dir tap))

/-- `WR.LEN` (42_system.md R235). The `ILLEGAL` half of the rule is the decoder's (log entry 6). -/
def execWrLen (len : Half) (s : State) : Result :=
  .next (acceptWrite s fun s =>
    whenIdle Reg.len (len.setWidth 32) s fun s => s.withCipher (s.cipher.setLen len))

/-- `NOP` (42_system.md R230). -/
def execNop (s : State) : Result := .next (acceptWrite s fun s => s)

/-- `EACK` (42_system.md R231), accepted in the faulted state too. -/
def execEack (s : State) : Result := .next (ackFault s)

/-- `SRST` (42_system.md R232), accepted in every state. -/
def execSrst (s : State) : Result := .next (resetBlock s)

/-- `WR.ILLEGAL` (42_system.md R233). -/
def execWrIllegal (idx : Idx) (data : Word) (s : State) : Result :=
  .next (acceptWrite s (raiseFault .illegal idx data))

end Sys2Proof.Machine
end

