-- ==== Sys2Proof/Machine/Checksum.lean ====
section
/-! DEFINITION. The meanings of the checksum unit's operations (40_checksum.md R138 to R143). -/

namespace Sys2Proof.Machine

/-- `CK_INIT` (40_checksum.md R140), legal in either sequencer state. -/
def execCkInit (s : State) : Result := .next (acceptWrite s fun s => s.withCk CkUnit.seeded)

/-- `WR.CK_DATA8` (40_checksum.md R138). The `ILLEGAL` half of the rule is the decoder's (log entry 6). -/
def execWrCkData8 (byte : Byte) (s : State) : Result :=
  .next (acceptWrite s fun s => s.withCk (absorb s.ck byte))

/-- `WR.CK_DATA32` (40_checksum.md R139): four absorbs, least significant byte first. -/
def execWrCkData32 (word : Word) (s : State) : Result :=
  .next (acceptWrite s fun s => s.withCk (absorbAll s.ck (bytesOf word)))

/-- `WR.CK_VERIFY` (40_checksum.md R141): a mismatch raises `INTEGRITY`, a match leaves no trace. -/
def execWrCkVerify (expect : Half) (s : State) : Result :=
  .next (acceptWrite s fun s =>
    if cksum s.ck = expect then s else raiseFault .integrity Reg.ckVerify (expect.setWidth 32) s)

/-- `RD.CKSUM` (40_checksum.md R142). -/
def execRdCksum (s : State) : Result := .next (returnRead ((cksum s.ck).setWidth 32) s)

/-- `RD.CK_ACC` (40_checksum.md R143). -/
def execRdCkAcc (s : State) : Result := .next (returnRead (accView s.ck) s)

end Sys2Proof.Machine
end

