-- ==== Sys2Proof/Machine/Cipher.lean ====
section
/-! DEFINITION. The meanings of the cipher unit's operations (41_cipher.md R161 to R178). -/

namespace Sys2Proof.Machine

/-- `WR.KEYn` (41_cipher.md R161). -/
def execWrKey (n : WordNo) (word : Word) (s : State) : Result :=
  .next (acceptWrite s fun s =>
    whenIdle (groupIdx Reg.key0 n) word s fun s => s.withCipher (s.cipher.writeKey n word))

/-- `KEY_CLEAR` (41_cipher.md R162). -/
def execKeyClear (s : State) : Result :=
  .next (acceptWrite s fun s =>
    whenIdle Reg.cmd (commandData Opcode.keyClear) s fun s => s.withCipher s.cipher.clearKey)

/-- `WR.IVn` (41_cipher.md R163). -/
def execWrIv (n : WordNo) (word : Word) (s : State) : Result :=
  .next (acceptWrite s fun s =>
    whenIdle (groupIdx Reg.iv0 n) word s fun s => s.withCipher (s.cipher.writeIv n word))

/-- `RD.IVn` (41_cipher.md R164). -/
def execRdIv (n : WordNo) (s : State) : Result := .next (returnRead (blockWord s.cipher.iv n) s)

/-- `WR.DINn` (41_cipher.md R165), legal in either sequencer state. -/
def execWrDin (n : WordNo) (word : Word) (s : State) : Result :=
  .next (acceptWrite s fun s => s.withCipher (s.cipher.writeDin n word))

/-- `RD.DINn` (41_cipher.md R176). -/
def execRdDin (n : WordNo) (s : State) : Result := .next (returnRead (blockWord s.cipher.din n) s)

/-- `RD.DOUTn` (41_cipher.md R177). -/
def execRdDout (n : WordNo) (s : State) : Result := .next (returnRead (blockWord s.cipher.dout n) s)

/-- `RD.CVn` (41_cipher.md R178). -/
def execRdCv (n : WordNo) (s : State) : Result := .next (returnRead (blockWord s.cipher.cv n) s)

/-- `C_START` (41_cipher.md R166): `SEQUENCE`, then `CONFIG`, then `FRAMING` (60_exceptions.md R299), else the message is
opened. -/
def execCStart (s : State) : Result :=
  .next (acceptWrite s fun s =>
    whenIdle Reg.cmd (commandData Opcode.cStart) s fun s =>
      if !(keyValid s.cipher && ivValid s.cipher) then raiseFault .config Reg.cmd (commandData Opcode.cStart) s
      else if s.cipher.len % 16 ≠ 0 then raiseFault .framing Reg.cmd (commandData Opcode.cStart) s
      else s.withCipher s.cipher.openMessage)

/-- `C_BLOCK` (41_cipher.md R168): `SEQUENCE`, then `FRAMING`, else one block and its tap (R175). -/
def execCBlock (s : State) : Result :=
  .next (acceptWrite s fun s =>
    whenRunning Opcode.cBlock s fun s =>
      if s.cipher.rem < 16 then raiseFault .framing Reg.cmd (commandData Opcode.cBlock) s
      else (s.withCipher s.cipher.processBlock).withCk (tapBlock s.ck s.cipher))

/-- `C_FINISH` (41_cipher.md R173): `SEQUENCE`, then `FRAMING`, else the message is closed. -/
def execCFinish (s : State) : Result :=
  .next (acceptWrite s fun s =>
    whenRunning Opcode.cFinish s fun s =>
      if s.cipher.rem ≠ 0 then raiseFault .framing Reg.cmd (commandData Opcode.cFinish) s
      else s.withCipher s.cipher.closeMessage)

/-- `C_ABORT` (41_cipher.md R174); never faults. -/
def execCAbort (s : State) : Result := .next (acceptWrite s fun s => s.withCipher s.cipher.leaveMessage)

end Sys2Proof.Machine
end

