-- ==== Sys2Proof/Machine/Dispatch.lean ====
section
/-! DEFINITION. The meaning of every operation: one arm per row of spec/opcode_table.json. -/

namespace Sys2Proof.Machine

def exec (i : Instr) (s : State) : Host.Outcome State Fault Refusal :=
  match i with
  | .rdId => Sys2Proof.Machine.execRdId s
  | .rdStatus => Sys2Proof.Machine.execRdStatus s
  | .rdCtrl => Sys2Proof.Machine.execRdCtrl s
  | .rdErr => Sys2Proof.Machine.execRdErr s
  | .rdLen => Sys2Proof.Machine.execRdLen s
  | .rdRem => Sys2Proof.Machine.execRdRem s
  | .rdCksum => Sys2Proof.Machine.execRdCksum s
  | .rdCkAcc => Sys2Proof.Machine.execRdCkAcc s
  | .rdIv n => Sys2Proof.Machine.execRdIv n s
  | .rdDin n => Sys2Proof.Machine.execRdDin n s
  | .rdDout n => Sys2Proof.Machine.execRdDout n s
  | .rdCv n => Sys2Proof.Machine.execRdCv n s
  | .wrCtrl dir tap => Sys2Proof.Machine.execWrCtrl dir tap s
  | .wrLen len => Sys2Proof.Machine.execWrLen len s
  | .wrCkData8 byte => Sys2Proof.Machine.execWrCkData8 byte s
  | .wrCkData32 word => Sys2Proof.Machine.execWrCkData32 word s
  | .wrCkVerify expect => Sys2Proof.Machine.execWrCkVerify expect s
  | .wrKey n word => Sys2Proof.Machine.execWrKey n word s
  | .wrIv n word => Sys2Proof.Machine.execWrIv n word s
  | .wrDin n word => Sys2Proof.Machine.execWrDin n word s
  | .nop => Sys2Proof.Machine.execNop s
  | .ckInit => Sys2Proof.Machine.execCkInit s
  | .cStart => Sys2Proof.Machine.execCStart s
  | .cBlock => Sys2Proof.Machine.execCBlock s
  | .cFinish => Sys2Proof.Machine.execCFinish s
  | .cAbort => Sys2Proof.Machine.execCAbort s
  | .keyClear => Sys2Proof.Machine.execKeyClear s
  | .eack => Sys2Proof.Machine.execEack s
  | .srst => Sys2Proof.Machine.execSrst s
  | .rdZero idx => Sys2Proof.Machine.execRdZero idx s
  | .wrIllegal idx data => Sys2Proof.Machine.execWrIllegal idx data s

end Sys2Proof.Machine
end

