-- ==== Sys2Proof/Machine/Step.lean ====
section
/-! DEFINITION. One step: the oldest pending event of the host is executed to completion (20_memory.md R80, 42_system.md
R220). -/

namespace Sys2Proof.Machine

/-- The step. With no event pending nothing changes (10_state.md R20); a transaction is decoded and executed; `Reset` gives
the block its reset state (70_reset_and_hazards.md R330). -/
def step (s : State) : Host.Outcome State Fault Refusal :=
  match s.port.pending with
  | [] => .next s
  | .transaction t :: rest => exec (decodeWord t) (s.withPort { s.port with pending := rest })
  | .reset :: rest => .next (resetBlock (s.withPort { s.port with pending := rest }))

/-- The state in which the table word `w` is the next transaction the host issues; nothing else is changed (log entries 1
and 14). A number that fits no transaction word leaves the state as it is. -/
def State.withFetchWord (s : State) (nbits w : Nat) : State :=
  match tableWord nbits w with
  | some t => s.withPort { s.port with pending := .transaction t :: s.port.pending }
  | none => s

end Sys2Proof.Machine
end

