-- ==== Sys2Proof/Machine/Chain.lean ====
section
/-! DEFINITION. Cipher-block chaining of a whole message, the equations that a sequence of `C_BLOCK`s realises one block at
a time (41_cipher.md R171, R172). -/

namespace Sys2Proof.Machine

/-- `C_i = BlockEnc(K, P_i xor C_(i-1))`, with `C_0` the given chaining value (41_cipher.md R171). -/
def cbcEncrypt (key chain : Block) : List Block → List Block
  | [] => []
  | p :: rest => blockEnc key (blockXor p chain) :: cbcEncrypt key (blockEnc key (blockXor p chain)) rest

/-- `P_i = BlockDec(K, C_i) xor C_(i-1)`, with `C_0` the given chaining value (41_cipher.md R172). -/
def cbcDecrypt (key chain : Block) : List Block → List Block
  | [] => []
  | c :: rest => blockXor (blockDec key c) chain :: cbcDecrypt key c rest

/-- The register words of blocks, in the order `GETBLK` reads them (30_encoding.md R111). -/
def wordsOfBlocks (blocks : List Block) : List Word := blocks.flatMap fun b => [b.x0, b.x1, b.x2, b.x3]

end Sys2Proof.Machine
end

