-- ==== Sys2Proof/Machine/Envelope.lean ====
section
/-! DEFINITION. The pseudo-instructions as lists of transactions (30_encoding.md R111, 43_envelope_sequences.md R262, R263,
R267), and the host's own part of SKY's envelope encode and decode: padding, packet layouts, framing checks, error mapping
(43_envelope_sequences.md R260 to R268). None of it is a transaction of its own; the host's part touches no state of the
block (log entry 13). -/

namespace Sys2Proof.Machine

/-! ## Pseudo-instructions (30_encoding.md R111) -/

/-- Four writes, one per word of `b`, to the group that starts at `base`, in the canonical order. -/
def writeGroup (base : Idx) (b : Block) : List TWord :=
  [writeWord (groupIdx base 0) b.x0, writeWord (groupIdx base 1) b.x1, writeWord (groupIdx base 2) b.x2,
    writeWord (groupIdx base 3) b.x3]

/-- `LOADKEY B`. -/
def loadKey (b : Block) : List TWord := writeGroup Reg.key0 b

/-- `LOADIV B`. -/
def loadIv (b : Block) : List TWord := writeGroup Reg.iv0 b

/-- `PUTBLK B`. -/
def putBlk (b : Block) : List TWord := writeGroup Reg.din0 b

/-- `GETBLK`: the block read is the four values. -/
def getBlk : List TWord :=
  [readWord (groupIdx Reg.dout0 0), readWord (groupIdx Reg.dout0 1), readWord (groupIdx Reg.dout0 2),
    readWord (groupIdx Reg.dout0 3)]

/-- `XBLK B`. -/
def xblk (b : Block) : List TWord := putBlk b ++ [commandWord Opcode.cBlock] ++ getBlk

/-- `CK_BYTES b0 .. b(m-1)`: whole words through `CK_DATA32`, the rest through `CK_DATA8`. -/
def ckBytes : List Byte → List TWord
  | b0 :: b1 :: b2 :: b3 :: rest => writeWord Reg.ckData32 (wordOfBytes b0 b1 b2 b3) :: ckBytes rest
  | rest => rest.map fun b => writeWord Reg.ckData8 (b.setWidth 32)

/-- `SETMODE dir, tap`. -/
def setMode (dir : Direction) (tap : Bool) : List TWord := [writeWord Reg.ctrl (ctrlData dir tap)]

/-- The message part of both envelope sequences: the blocks one after the other. -/
def messageBlocks (blocks : List Block) : List TWord := blocks.flatMap xblk

/-- `ENV_ENCODE(K, U, V, M)` (43_envelope_sequences.md R262, R267), the padded plaintext as its blocks; the userID `U` is in
no transaction. -/
def envEncode (key iv : Block) (plaintext : List Block) : List TWord :=
  [commandWord Opcode.ckInit] ++ loadKey key ++ loadIv iv ++ setMode .encrypt true ++
    [writeWord Reg.len (BitVec.ofNat 32 (16 * plaintext.length)), commandWord Opcode.cStart, readWord Reg.err] ++
    messageBlocks plaintext ++ [commandWord Opcode.cFinish, readWord Reg.cksum]

/-! ## Byte strings as blocks -/

/-- The first `count` blocks of a byte string. -/
def blocksOfBytes : Nat → List Byte → List Block
  | 0, _ => []
  | count + 1, bs => blockOfBytes (bs.take 16) :: blocksOfBytes count (bs.drop 16)

/-- The bytes of blocks, in order. -/
def bytesOfBlocks (blocks : List Block) : List Byte := blocks.flatMap blockBytes

/-! ## Padding (43_envelope_sequences.md R265) -/

/-- `L` for a payload of `n` bytes; `full` is `PAD_FULL_BLOCK_WHEN_ALIGNED`. -/
def paddedLength (full : Bool) (n : Nat) : Nat := if full then n + 16 - n % 16 else n + (16 - n % 16) % 16

/-- The payload extended with zero bytes to `L` bytes. -/
def padPayload (full : Bool) (payload : List Byte) : List Byte :=
  payload ++ List.replicate (paddedLength full payload.length - payload.length) 0

/-! ## Packet layouts -/

/-- A 16-bit integer on the wire: little-endian (20_memory.md R71). -/
def wireHalf (v : Half) : List Byte := [v.extractLsb' 0 8, v.extractLsb' 8 8]

/-- The 16-bit integer at offset `k` of a packet: `P[k] | (P[k+1] << 8)`, unsigned (20_memory.md R71). -/
def halfAt (p : List Byte) (k : Nat) : Half := p.getD (k + 1) 0 ++ p.getD k 0

/-- The request packet (43_envelope_sequences.md R260, R262): version 1, reserved 0, length, userID, IV, ciphertext,
checksum of the plaintext. -/
def requestPacket (userId : Word) (iv : Block) (ciphertext : List Block) (sum : Half) : List Byte :=
  [1, 0] ++ wireHalf (BitVec.ofNat 16 (16 * ciphertext.length)) ++ bytesOf userId ++ blockBytes iv ++
    bytesOfBlocks ciphertext ++ wireHalf sum

/-- The response packet (43_envelope_sequences.md R261): version, reserved, length, IV, ciphertext, checksum of header and
plaintext. -/
def responsePacket (version reserved : Byte) (iv : Block) (ciphertext : List Block) (sum : Half) : List Byte :=
  [version, reserved] ++ wireHalf (BitVec.ofNat 16 (16 * ciphertext.length)) ++ blockBytes iv ++
    bytesOfBlocks ciphertext ++ wireHalf sum

/-! ## Decode (43_envelope_sequences.md R263, R264, R267) -/

/-- SKY's error classes, as a host sees them (43_envelope_sequences.md R268). -/
inductive HostError where
  | configuration
  | framing
  | integrity
  deriving DecidableEq, Repr

/-- The host's framing checks before the block is touched; on success the length `L` (43_envelope_sequences.md R264). -/
def frameCheck (p : List Byte) : Except HostError Nat :=
  if p.length < 20 then .error .framing
  else if p.length - 20 ≠ (halfAt p 2).toNat + 2 then .error .framing
  else if (halfAt p 2).toNat % 16 ≠ 0 then .error .framing
  else .ok (halfAt p 2).toNat

/-- `ENV_DECODE(K, P)` (43_envelope_sequences.md R263, R267) for a packet that passed `frameCheck`. -/
def envDecode (key : Block) (p : List Byte) : List TWord :=
  [commandWord Opcode.ckInit] ++ ckBytes (p.take 20) ++ loadKey key ++ loadIv (blockOfBytes ((p.drop 4).take 16)) ++
    setMode .decrypt true ++
    [writeWord Reg.len ((halfAt p 2).setWidth 32), commandWord Opcode.cStart, readWord Reg.err] ++
    messageBlocks (blocksOfBytes ((halfAt p 2).toNat / 16) (p.drop 20)) ++
    [commandWord Opcode.cFinish,
      writeWord Reg.ckVerify ((halfAt p (20 + (halfAt p 2).toNat)).setWidth 32), readWord Reg.err]

/-- SKY's error for the fault code a host reads from `ERR` (43_envelope_sequences.md R268); `ILLEGAL` and `SEQUENCE` have
none there (60_exceptions.md R290). -/
def hostErrorOf (ecode : BitVec 3) : Option HostError :=
  if ecode = 2 then some .configuration
  else if ecode = 3 then some .framing
  else if ecode = 4 then some .integrity
  else none

end Sys2Proof.Machine
end

