-- ==== Sys2Proof/Machine/Table.lean ====
section
/-! DEFINITION. spec/opcode_table.json as data: the match and mask of each row of 30_encoding.md R104 to R106. The decoder
does not use it; the claims hold the decoder against it. -/

namespace Sys2Proof.Machine

/-- A row of the opcode table. -/
structure OpRow where
  mnemonic : String
  code : TWord
  mask : TWord
  deriving DecidableEq, Repr

/-- A transaction word matches a row when `(T & mask) = match` (30_encoding.md R105). -/
def OpRow.matchesWord (r : OpRow) (t : TWord) : Bool := t &&& r.mask == r.code

/-- The rows of 30_encoding.md R104, R105 and R106; the two fallback rows of R112 are not among them. -/
def opRows : List OpRow := [
  ⟨"RD.ID", 0x0000000000, 0xFF00000000⟩,
  ⟨"RD.STATUS", 0x0100000000, 0xFF00000000⟩,
  ⟨"RD.CTRL", 0x0200000000, 0xFF00000000⟩,
  ⟨"RD.ERR", 0x0400000000, 0xFF00000000⟩,
  ⟨"RD.LEN", 0x0500000000, 0xFF00000000⟩,
  ⟨"RD.REM", 0x0600000000, 0xFF00000000⟩,
  ⟨"RD.CKSUM", 0x0A00000000, 0xFF00000000⟩,
  ⟨"RD.CK_ACC", 0x0C00000000, 0xFF00000000⟩,
  ⟨"RD.IVn", 0x1800000000, 0xFC00000000⟩,
  ⟨"RD.DINn", 0x1C00000000, 0xFC00000000⟩,
  ⟨"RD.DOUTn", 0x2000000000, 0xFC00000000⟩,
  ⟨"RD.CVn", 0x2400000000, 0xFC00000000⟩,
  ⟨"WR.CTRL", 0x8200000000, 0xFFFFFFFFF6⟩,
  ⟨"WR.LEN", 0x8500000000, 0xFFFFFF0000⟩,
  ⟨"WR.CK_DATA8", 0x8800000000, 0xFFFFFFFF00⟩,
  ⟨"WR.CK_DATA32", 0x8900000000, 0xFF00000000⟩,
  ⟨"WR.CK_VERIFY", 0x8B00000000, 0xFFFFFF0000⟩,
  ⟨"WR.KEYn", 0x9000000000, 0xFC00000000⟩,
  ⟨"WR.IVn", 0x9800000000, 0xFC00000000⟩,
  ⟨"WR.DINn", 0x9C00000000, 0xFC00000000⟩,
  ⟨"NOP", 0x8300000000, 0xFFFFFFFFFF⟩,
  ⟨"CK_INIT", 0x8300000001, 0xFFFFFFFFFF⟩,
  ⟨"C_START", 0x8300000010, 0xFFFFFFFFFF⟩,
  ⟨"C_BLOCK", 0x8300000011, 0xFFFFFFFFFF⟩,
  ⟨"C_FINISH", 0x8300000012, 0xFFFFFFFFFF⟩,
  ⟨"C_ABORT", 0x8300000013, 0xFFFFFFFFFF⟩,
  ⟨"KEY_CLEAR", 0x8300000020, 0xFFFFFFFFFF⟩,
  ⟨"EACK", 0x830000007E, 0xFFFFFFFFFF⟩,
  ⟨"SRST", 0x830000007F, 0xFFFFFFFFFF⟩]

/-- The mnemonic of an operation, as the table spells it. -/
def mnemonicOf : Instr → String
  | .rdId => "RD.ID"
  | .rdStatus => "RD.STATUS"
  | .rdCtrl => "RD.CTRL"
  | .rdErr => "RD.ERR"
  | .rdLen => "RD.LEN"
  | .rdRem => "RD.REM"
  | .rdCksum => "RD.CKSUM"
  | .rdCkAcc => "RD.CK_ACC"
  | .rdIv _ => "RD.IVn"
  | .rdDin _ => "RD.DINn"
  | .rdDout _ => "RD.DOUTn"
  | .rdCv _ => "RD.CVn"
  | .wrCtrl _ _ => "WR.CTRL"
  | .wrLen _ => "WR.LEN"
  | .wrCkData8 _ => "WR.CK_DATA8"
  | .wrCkData32 _ => "WR.CK_DATA32"
  | .wrCkVerify _ => "WR.CK_VERIFY"
  | .wrKey _ _ => "WR.KEYn"
  | .wrIv _ _ => "WR.IVn"
  | .wrDin _ _ => "WR.DINn"
  | .nop => "NOP"
  | .ckInit => "CK_INIT"
  | .cStart => "C_START"
  | .cBlock => "C_BLOCK"
  | .cFinish => "C_FINISH"
  | .cAbort => "C_ABORT"
  | .keyClear => "KEY_CLEAR"
  | .eack => "EACK"
  | .srst => "SRST"
  | .rdZero _ => "RD.ZERO"
  | .wrIllegal _ _ => "WR.ILLEGAL"

end Sys2Proof.Machine
end

