-- ==== Sys2Proof/Safety.lean ====
section
/-! DEFINITION. What the claims call a good state: the invariants of the reachable state (10_state.md R47). -/

namespace Sys2Proof.Machine

/-- The largest `S1` after `k` bytes of a period: `0xFF + 0xFF*k` (10_state.md R47 item 2, 40_checksum.md R135). -/
def s1Bound (k : Nat) : Nat := 255 + 255 * k

/-- The largest `S2` after `k` bytes of a period: `0xFF * (1 + k + k(k+1)/2)` (40_checksum.md R135). -/
def s2Bound (k : Nat) : Nat := 255 * (1 + k + k * (k + 1) / 2)

/-- Items 1 and 2 of 10_state.md R47: the fold counter and the accumulators. -/
def CkUnit.Good (k : CkUnit) : Prop :=
  k.cnt.toNat ≤ 19 ∧ 1 ≤ k.s1.toNat ∧ 1 ≤ k.s2.toNat ∧ k.s1.toNat ≤ s1Bound k.cnt.toNat ∧
    k.s2.toNat ≤ s2Bound k.cnt.toNat

/-- Items 3, 4 and 6 of 10_state.md R47: the message length accounting, the mode, and what holds during a message. -/
def CipherUnit.Good (c : CipherUnit) : Prop :=
  c.rem.toNat % 16 = 0 ∧ (c.cst = .run → c.rem.toNat ≤ c.len.toNat) ∧ c.mode = 0 ∧
    (c.cst = .run → c.kmask = 0b1111#4 ∧ c.imask = 0 ∧ c.done = false)

/-- Item 5 of 10_state.md R47: the fault record. -/
def FaultRecord.Good (e : FaultRecord) : Prop := e.ecode.toNat ≤ 5 ∧ (e.ecode = 0 → e.eidx = 0 ∧ e.eop = 0)

/-- The invariants of the reachable state (10_state.md R47). -/
def State.Good (s : State) : Prop := s.ck.Good ∧ s.cipher.Good ∧ s.err.Good

/-- A state in which the block holds no fault and has no message open: where a host starts a message. -/
def State.Ready (s : State) : Prop := s.err = FaultRecord.none ∧ s.cipher.cst = .idle

/-- The state with the transactions `ts` issued next, before whatever the host issues after them. -/
def State.issue (s : State) (ts : List TWord) : State :=
  { s with port := { s.port with pending := ts.map .transaction ++ s.port.pending } }

/-- The state after a read that returned `v`: nothing but the host's side of the port differs (42_system.md R221). -/
def State.returned (s : State) (v : Word) : State := { s with port := { s.port with rdata := s.port.rdata ++ [v] } }

/-- The state after the write of `data` to `idx` faulted with `code`: nothing but the fault record differs
(60_exceptions.md R296). -/
def State.recorded (s : State) (code : BitVec 3) (idx : Idx) (eop : Byte) : State :=
  { s with err := { ecode := code, eidx := idx, eop := eop } }

/-- The state with other cipher registers. -/
def State.ciphered (s : State) (c : CipherUnit) : State := { s with cipher := c }

/-- A write that feeds the checksum unit. -/
inductive Feed where
  /-- `WR.CK_DATA8` -/
  | byte (b : Byte)
  /-- `WR.CK_DATA32` -/
  | word (w : Word)
  deriving DecidableEq, Repr

/-- The operation of a feed. -/
def Feed.instr : Feed → Instr
  | .byte b => .wrCkData8 b
  | .word w => .wrCkData32 w

/-- The bytes a feed stands for, in the order of 20_memory.md R73: bits 7:0 first. -/
def Feed.bytes : Feed → List Byte
  | .byte b => [b]
  | .word w => [w.extractLsb' 0 8, w.extractLsb' 8 8, w.extractLsb' 16 8, w.extractLsb' 24 8]

/-- A step that does not stop: it answers a next state (42_system.md R220: every transaction has one in every state). -/
def Runs (s : State) : Prop := ∃ t, step s = .next t

end Sys2Proof.Machine
end

