-- ==== Sys2Proof/Certificates/Slice0/Obligations.lean ====
section
/-! DEFINITION. The statements for the provers. A register's new value is written out in numbers or as a record update
wherever the spec gives one; a record update also says that every other piece of state is unchanged. -/

open Sys2Proof Sys2Proof.Machine

/-! ## Encoding (30_encoding.md) -/

/-- Decoding the five bytes of an encoded well-formed operation gives the operation and the bytes after it. -/
def Obligations.DecodeUndoesEncode : Prop :=
  ∀ (i : Instr) (rest : List Byte), i.wellFormed = true → decode (encode i ++ rest) = .ok (i, rest)

/-- Encoding what a word decodes to gives the word back; a read's comes back canonical, with `WDATA = 0` (R101). -/
def Obligations.EncodeUndoesDecode : Prop :=
  ∀ t : TWord, encodeWord (decodeWord t) = if t.getLsbD 39 then t else t &&& 0xFF00000000#40

/-- No word decodes to an ill-formed operation. -/
def Obligations.DecodedOperationsAreWellFormed : Prop := ∀ t : TWord, (decodeWord t).wellFormed = true

/-- R112: a word that matches a row of the opcode table decodes to that row's operation, a word that matches none to the
fallback of its kind, and no two rows match the same word. -/
def Obligations.DecodeFollowsOpcodeTable : Prop :=
  (∀ (t : TWord) (r : OpRow), r ∈ opRows → t &&& r.mask = r.code → mnemonicOf (decodeWord t) = r.mnemonic) ∧
  (∀ t : TWord, (∀ r ∈ opRows, t &&& r.mask ≠ r.code) →
    mnemonicOf (decodeWord t) = if t.getLsbD 39 then "WR.ILLEGAL" else "RD.ZERO") ∧
  opRows.Pairwise (fun a b => ∀ t : TWord, ¬ (t &&& a.mask = a.code ∧ t &&& b.mask = b.code))

/-- R103: every operand is the bit field of the word the rule names, and the bits it requires to be 0 are 0. -/
def Obligations.OperandsAreTheirBitFields : Prop :=
  ∀ t : TWord,
    match decodeWord t with
    | .rdIv n | .rdDin n | .rdDout n | .rdCv n => n.val = t.toNat / 2 ^ 32 % 4
    | .wrKey n word | .wrIv n word | .wrDin n word => n.val = t.toNat / 2 ^ 32 % 4 ∧ word.toNat = t.toNat % 2 ^ 32
    | .wrCkData32 word => word.toNat = t.toNat % 2 ^ 32
    | .wrCkData8 byte => byte.toNat = t.toNat % 2 ^ 8 ∧ t.toNat / 2 ^ 8 % 2 ^ 24 = 0
    | .wrLen v | .wrCkVerify v => v.toNat = t.toNat % 2 ^ 16 ∧ t.toNat / 2 ^ 16 % 2 ^ 16 = 0
    | .wrCtrl dir tap =>
        dir = (if t.toNat % 2 = 1 then .decrypt else .encrypt) ∧ tap = decide (t.toNat / 2 ^ 3 % 2 = 1) ∧
          t.toNat / 2 % 4 = 0 ∧ t.toNat / 2 ^ 4 % 2 ^ 28 = 0
    | .rdZero idx => idx.toNat = t.toNat / 2 ^ 32 % 128
    | .wrIllegal idx data => idx.toNat = t.toNat / 2 ^ 32 % 128 ∧ data.toNat = t.toNat % 2 ^ 32
    | .nop | .ckInit | .cStart | .cBlock | .cFinish | .cAbort | .keyClear | .eack | .srst =>
        t.toNat % 2 ^ 8 ∈ [0x00, 0x01, 0x10, 0x11, 0x12, 0x13, 0x20, 0x7E, 0x7F] ∧ t.toNat / 2 ^ 8 % 2 ^ 24 = 0
    | .rdId | .rdStatus | .rdCtrl | .rdErr | .rdLen | .rdRem | .rdCksum | .rdCkAcc => True

/-- Words of 95_test_vectors.md V4.1, as the five bytes that store them. -/
def Obligations.SampleWordsDecode : Prop :=
  decode [0x19, 0x00, 0x00, 0x00, 0x00] = .ok (.rdIv 1, []) ∧
  decode [0x82, 0x00, 0x00, 0x00, 0x09] = .ok (.wrCtrl .decrypt true, []) ∧
  decode [0x89, 0x44, 0x33, 0x22, 0x11] = .ok (.wrCkData32 0x44332211, []) ∧
  decode [0x92, 0x88, 0x15, 0xF7, 0xAB] = .ok (.wrKey 2 0x8815F7AB, []) ∧
  decode [0x83, 0x00, 0x00, 0x00, 0x11] = .ok (.cBlock, []) ∧
  decode [0x83, 0x00, 0x00, 0x01, 0x11] = .ok (.wrIllegal 0x03 0x00000111, [])

/-- R107, R233: the illegal writes are exactly the six cases, and an illegal write raises `ILLEGAL` and does nothing else;
in the faulted state it is ignored. -/
def Obligations.IllegalWritesFault : Prop :=
  ∀ (idx : Idx) (data : Word),
    (decodeWord (writeWord idx data) = .wrIllegal idx data ↔
      (idx.toNat ∈ [0x00, 0x01, 0x04, 0x06, 0x0A, 0x0C] ∨ (0x20 ≤ idx.toNat ∧ idx.toNat ≤ 0x27)) ∨
      (idx.toNat = 0x07 ∨ (0x0D ≤ idx.toNat ∧ idx.toNat ≤ 0x0F) ∨ (0x14 ≤ idx.toNat ∧ idx.toNat ≤ 0x17) ∨
        0x28 ≤ idx.toNat) ∨
      (idx.toNat = 0x02 ∧ data.toNat ∉ [0x0, 0x1, 0x8, 0x9]) ∨
      ((idx.toNat = 0x05 ∨ idx.toNat = 0x0B) ∧ 2 ^ 16 ≤ data.toNat) ∨
      (idx.toNat = 0x08 ∧ 2 ^ 8 ≤ data.toNat) ∨
      (idx.toNat = 0x03 ∧ data.toNat ∉ [0x00, 0x01, 0x10, 0x11, 0x12, 0x13, 0x20, 0x7E, 0x7F])) ∧
    ∀ s : State,
      (s.err.ecode = 0 → exec (.wrIllegal idx data) s =
        .next (s.recorded 1 idx (if idx.toNat = 0x03 then BitVec.ofNat 8 data.toNat else 0))) ∧
      (s.err.ecode ≠ 0 → exec (.wrIllegal idx data) s = .next s)

/-- R229: every index that names no readable register, the key words among them, reads 0, whatever the data of the read. -/
def Obligations.UnreadableIndicesReadZero : Prop :=
  (∀ t : TWord, t.getLsbD 39 = false →
    ((idxOf t).toNat ∈ [0x03, 0x07, 0x08, 0x09, 0x0B] ∨ (0x0D ≤ (idxOf t).toNat ∧ (idxOf t).toNat ≤ 0x17) ∨
      0x28 ≤ (idxOf t).toNat) → decodeWord t = .rdZero (idxOf t)) ∧
  ∀ (idx : Idx) (s : State), exec (.rdZero idx) s = .next (s.returned 0)

/-! ## The step and reset (42_system.md section 1, 10_state.md section 10) -/

/-- When the bytes of the oldest pending transaction decode to a well-formed operation, the step is that operation's
execution in the state with the transaction taken off the queue (the queue is the model's: log entry 1). -/
def Obligations.StepRunsTheOldestTransaction : Prop :=
  ∀ (s : State) (t : TWord) (rest : List HostEvent) (i : Instr), s.port.pending = .transaction t :: rest →
    decode (bytesOfWord t) = .ok (i, []) → i.wellFormed = true →
    step s = exec i { s with port := { s.port with pending := rest } }

/-- R20: the block does not act on its own; with no event pending a step changes nothing (the pending list is the model's:
log entry 1). -/
def Obligations.IdleBlockChangesNothing : Prop := ∀ s : State, s.port.pending = [] → step s = .next s

/-- R220: every transaction, and every event of the host, has a next state in every state. -/
def Obligations.EveryStepHasANextState : Prop := ∀ s : State, Runs s

/-- R48: the reset value of every piece of state; `SRST` and the platform's `Reset` both give exactly these, from every
state. That they leave the host's side of the port alone is the model's (log entry 3). -/
def Obligations.ResetGivesEveryRegisterItsValue : Prop :=
  (State.reset.ck = { s1 := 0x00FF, s2 := 0x00FF, cnt := 0 } ∧
    State.reset.cipher =
      { key := ⟨0, 0, 0, 0⟩, kmask := 0, iv := ⟨0, 0, 0, 0⟩, imask := 0, din := ⟨0, 0, 0, 0⟩, dout := ⟨0, 0, 0, 0⟩,
        cv := ⟨0, 0, 0, 0⟩, dir := .encrypt, mode := 0, tap := false, len := 0, rem := 0, cst := .idle, done := false } ∧
    State.reset.err = { ecode := 0, eidx := 0, eop := 0 }) ∧
  (∀ s : State, exec .srst s = .next { State.reset with port := s.port }) ∧
  ∀ (s : State) (rest : List HostEvent), s.port.pending = .reset :: rest →
    step s = .next { State.reset with port := { s.port with pending := rest } }

/-- R331: what each of the 128 indices reads after reset. The read goes through the queue of transactions and the list of
read data, which are the model's (log entries 1 and 2). -/
def Obligations.ResetReadValues : Prop :=
  ∀ t : TWord, t.getLsbD 39 = false →
    ∃ u : State, step (State.reset.issue [t]) = .next u ∧
      u.port.rdata =
        [if (idxOf t).toNat = 0x00 then 0x464C3136 else if (idxOf t).toNat = 0x0A then 0x0000FFFF
          else if (idxOf t).toNat = 0x0C then 0x00FF00FF else 0]

/-! ## Reads (42_system.md sections 1 and 2) -/

/-- R221: a read returns the register its index selects in the map of R45, in every state, the faulted one too, and changes
nothing of the block (the queue and the log of read data are the model's: log entries 1 and 2). -/
def Obligations.ReadsReturnTheRegisterMap : Prop :=
  ∀ (s : State) (t : TWord) (rest : List HostEvent), s.port.pending = .transaction t :: rest → t.getLsbD 39 = false →
    step s = .next { s with port := { pending := rest, rdata := s.port.rdata ++ [memRead (idxOf t) s] } }

/-- R224: the fields of `STATUS`. -/
def Obligations.StatusReadsTheFlags : Prop :=
  (∀ data : Word, decodeWord (packWord false 0x01 data) = .rdStatus) ∧
  ∀ s : State, ∃ v : Word, exec .rdStatus s = .next (s.returned v) ∧
    v.toNat =
      (if s.cipher.cst = .run then 1 else 0) + 2 * (if s.cipher.kmask.toNat = 15 then 1 else 0) +
      4 * (if s.cipher.imask.toNat = 15 then 1 else 0) + 8 * (if s.cipher.done then 1 else 0) +
      16 * (if s.err.ecode.toNat ≠ 0 then 1 else 0) + 256 * s.ck.cnt.toNat

/-- R223, R225 to R228: `ID`, and the fields of `CTRL`, `ERR`, `LEN`, `REM`. -/
def Obligations.SystemRegistersReadTheirFields : Prop :=
  (∀ data : Word, decodeWord (packWord false 0x00 data) = .rdId ∧ decodeWord (packWord false 0x02 data) = .rdCtrl ∧
    decodeWord (packWord false 0x04 data) = .rdErr ∧ decodeWord (packWord false 0x05 data) = .rdLen ∧
    decodeWord (packWord false 0x06 data) = .rdRem) ∧
  ∀ s : State,
    exec .rdId s = .next (s.returned 0x464C3136) ∧
    (∃ v : Word, exec .rdCtrl s = .next (s.returned v) ∧
      v.toNat = (if s.cipher.dir = .decrypt then 1 else 0) + 2 * s.cipher.mode.toNat + 8 * (if s.cipher.tap then 1 else 0)) ∧
    (∃ v : Word, exec .rdErr s = .next (s.returned v) ∧
      v.toNat = s.err.ecode.toNat + 2 ^ 8 * s.err.eidx.toNat + 2 ^ 16 * s.err.eop.toNat) ∧
    (∃ v : Word, exec .rdLen s = .next (s.returned v) ∧ v.toNat = s.cipher.len.toNat) ∧
    (∃ v : Word, exec .rdRem s = .next (s.returned v) ∧ v.toNat = s.cipher.rem.toNat)

/-- R143 and the value of R142: the raw accumulators, and their folds side by side (R134). -/
def Obligations.ChecksumRegistersReadTheAccumulators : Prop :=
  (∀ data : Word,
    decodeWord (packWord false 0x0C data) = .rdCkAcc ∧ decodeWord (packWord false 0x0A data) = .rdCksum) ∧
  ∀ s : State,
    (∃ v : Word, exec .rdCkAcc s = .next (s.returned v) ∧ v.toNat = 2 ^ 16 * s.ck.s2.toNat + s.ck.s1.toNat) ∧
    (∃ v : Word, exec .rdCksum s = .next (s.returned v) ∧
      v.toNat = 2 ^ 8 * (fold8 s.ck.s2).toNat + (fold8 s.ck.s1).toNat)

/-- R164, R176 to R178: word `n` of a data register has bytes `4n` to `4n + 3` of its byte string, the first lowest. -/
def Obligations.DataRegistersReadTheirWords : Prop :=
  (∀ (n : WordNo) (data : Word),
    decodeWord (packWord false (BitVec.ofNat 7 (0x18 + n.val)) data) = .rdIv n ∧
    decodeWord (packWord false (BitVec.ofNat 7 (0x1C + n.val)) data) = .rdDin n ∧
    decodeWord (packWord false (BitVec.ofNat 7 (0x20 + n.val)) data) = .rdDout n ∧
    decodeWord (packWord false (BitVec.ofNat 7 (0x24 + n.val)) data) = .rdCv n) ∧
  ∀ (s : State) (n : WordNo),
    (∃ v : Word, exec (.rdIv n) s = .next (s.returned v) ∧
      ∀ j : Fin 4, v.toNat / 256 ^ j.val % 256 = (blockByte s.cipher.iv (Fin.ofNat 16 (4 * n.val + j.val))).toNat) ∧
    (∃ v : Word, exec (.rdDin n) s = .next (s.returned v) ∧
      ∀ j : Fin 4, v.toNat / 256 ^ j.val % 256 = (blockByte s.cipher.din (Fin.ofNat 16 (4 * n.val + j.val))).toNat) ∧
    (∃ v : Word, exec (.rdDout n) s = .next (s.returned v) ∧
      ∀ j : Fin 4, v.toNat / 256 ^ j.val % 256 = (blockByte s.cipher.dout (Fin.ofNat 16 (4 * n.val + j.val))).toNat) ∧
    (∃ v : Word, exec (.rdCv n) s = .next (s.returned v) ∧
      ∀ j : Fin 4, v.toNat / 256 ^ j.val % 256 = (blockByte s.cipher.cv (Fin.ofNat 16 (4 * n.val + j.val))).toNat)

/-! ## The checksum algorithm (40_checksum.md sections 1 and 2) -/

/-- R132: the fold, its bounds, its idempotence and its closed form. -/
def Obligations.FoldReducesModulo255 : Prop :=
  ∀ s : Half,
    (fold1 s).toNat = s.toNat % 256 + s.toNat / 256 ∧ (fold1 s).toNat ≤ 0x1FE ∧
    fold8 s = (if 0xFF < (fold1 s).toNat then fold1 (fold1 s) else fold1 s) ∧
    fold8 s = fold1 (fold1 s) ∧ (fold8 s).toNat ≤ 0xFF ∧ fold8 (fold8 s) = fold8 s ∧
    (fold8 s).toNat = (if s.toNat = 0 then 0 else (s.toNat - 1) % 255 + 1)

/-- R131: the byte step in exact integers, with the forced fold after the twentieth byte; no addition overflows (R135). The
premise is the unit's invariant (R47 items 1 and 2), which `GoodStatesStayGood` keeps. -/
def Obligations.AbsorbIsTheExactByteStep : Prop :=
  ∀ (k : CkUnit) (b : Byte), k.Good →
    k.s1.toNat + b.toNat ≤ 0x14EB ∧ k.s2.toNat + (k.s1.toNat + b.toNat) ≤ 0xE619 ∧
    (k.cnt.toNat ≠ 19 →
      (absorb k b).s1.toNat = k.s1.toNat + b.toNat ∧ (absorb k b).s2.toNat = k.s2.toNat + (k.s1.toNat + b.toNat) ∧
      (absorb k b).cnt.toNat = k.cnt.toNat + 1) ∧
    (k.cnt.toNat = 19 →
      absorb k b =
        { s1 := fold8 (BitVec.ofNat 16 (k.s1.toNat + b.toNat))
          s2 := fold8 (BitVec.ofNat 16 (k.s2.toNat + (k.s1.toNat + b.toNat)))
          cnt := 0 })

/-- R136: the checksum of every byte string in closed form, over unbounded integers. -/
def Obligations.ChecksumClosedForm : Prop :=
  ∀ bs : List Byte,
    (checksum bs).toNat =
      2 ^ 8 * ((0xFF + ((List.range bs.length).map fun i =>
          0xFF + ((bs.take (i + 1)).map BitVec.toNat).sum).sum - 1) % 255 + 1) +
        ((0xFF + (bs.map BitVec.toNat).sum - 1) % 255 + 1)

/-- R136 items 1, 2 and 4: no byte of a checksum is zero, the empty input gives `0xFFFF`, and `0x00` and `0xFF` are the same
byte to the checksum. -/
def Obligations.ChecksumNeverZeroAndBlindToFF : Prop :=
  (∀ bs : List Byte, (checksum bs).toNat % 256 ≠ 0 ∧ (checksum bs).toNat / 256 ≠ 0) ∧
  (checksum []).toNat = 0xFFFF ∧
  ∀ front back : List Byte, checksum (front ++ 0x00#8 :: back) = checksum (front ++ 0xFF#8 :: back)

/-! ## The checksum unit's operations (40_checksum.md section 3) -/

/-- R140. -/
def Obligations.CkInitSeedsTheAccumulators : Prop :=
  decodeWord 0x8300000001 = .ckInit ∧
  ∀ s : State,
    (s.err.ecode = 0 → exec .ckInit s = .next { s with ck := { s1 := 0x00FF, s2 := 0x00FF, cnt := 0 } }) ∧
    (s.err.ecode ≠ 0 → exec .ckInit s = .next s)

/-- R138: one byte is absorbed, in either sequencer state; data above `0xFF` is an illegal write. -/
def Obligations.CkDataByteAbsorbsOneByte : Prop :=
  (∀ (b : Byte) (s : State),
    (s.err.ecode = 0 → exec (.wrCkData8 b) s = .next { s with ck := absorb s.ck b }) ∧
    (s.err.ecode ≠ 0 → exec (.wrCkData8 b) s = .next s)) ∧
  ∀ data : Word, decodeWord (writeWord 0x08 data) =
    if data.toNat < 2 ^ 8 then .wrCkData8 (BitVec.ofNat 8 data.toNat) else .wrIllegal 0x08 data

/-- R139: a 32-bit data write is four byte writes, the low byte first, in every state; every data value is legal. -/
def Obligations.CkDataWordIsFourByteWrites : Prop :=
  (∀ (w : Word) (s : State), ∃ a b c d : State,
    exec (.wrCkData8 (BitVec.ofNat 8 w.toNat)) s = .next a ∧
    exec (.wrCkData8 (BitVec.ofNat 8 (w.toNat / 2 ^ 8))) a = .next b ∧
    exec (.wrCkData8 (BitVec.ofNat 8 (w.toNat / 2 ^ 16))) b = .next c ∧
    exec (.wrCkData8 (BitVec.ofNat 8 (w.toNat / 2 ^ 24))) c = .next d ∧
    exec (.wrCkData32 w) s = .next d) ∧
  ∀ w : Word, decodeWord (writeWord 0x09 w) = .wrCkData32 w

/-- R141, R294: a match changes nothing at all, a mismatch raises `INTEGRITY` and changes nothing else; high data bits make
the write illegal. -/
def Obligations.CkVerifyFaultsOnlyOnMismatch : Prop :=
  (∀ (expect : Half) (s : State),
    (s.err.ecode = 0 → expect.toNat = 2 ^ 8 * (fold8 s.ck.s2).toNat + (fold8 s.ck.s1).toNat →
      exec (.wrCkVerify expect) s = .next s) ∧
    (s.err.ecode = 0 → expect.toNat ≠ 2 ^ 8 * (fold8 s.ck.s2).toNat + (fold8 s.ck.s1).toNat →
      exec (.wrCkVerify expect) s = .next (s.recorded 4 0x0B 0)) ∧
    (s.err.ecode ≠ 0 → exec (.wrCkVerify expect) s = .next s)) ∧
  ∀ data : Word, decodeWord (writeWord 0x0B data) =
    if data.toNat < 2 ^ 16 then .wrCkVerify (BitVec.ofNat 16 data.toNat) else .wrIllegal 0x0B data

/-- R142, the sequence law for byte and word writes: after `CK_INIT` and any mixture of them, `RD CKSUM` returns the checksum
of the bytes they fed. -/
def Obligations.FedBytesReadBackAsTheirChecksum : Prop :=
  ∀ (s : State) (feeds : List Feed), s.err.ecode = 0 →
    ∃ u : State,
      Host.Core.run Sys2Proof.core (feeds.length + 2)
        (s.issue (0x8300000001 :: feeds.map (fun f => encodeWord f.instr) ++ [0x0A00000000])) = .next u ∧
      u.port = ⟨s.port.pending, s.port.rdata ++ [(checksum (feeds.flatMap Feed.bytes)).setWidth 32]⟩ ∧
      u.cipher = s.cipher ∧ u.err = s.err

/-- R111: `CK_BYTES b` has the effect of absorbing the bytes in order, and leaves the rest of the queue as it was. The queue
of transactions and the straight-line list are the model's (log entries 1 and 13). -/
def Obligations.CkBytesAbsorbsItsBytes : Prop :=
  ∀ (s : State) (bs : List Byte), s.err.ecode = 0 →
    Host.Core.run Sys2Proof.core (ckBytes bs).length (s.issue (ckBytes bs)) = .next { s with ck := bs.foldl absorb s.ck }

/-! ## Configuration of the cipher unit (41_cipher.md sections 2 and 3, 42_system.md section 3) -/

/-- R161: a key word's four bytes and its mask bit are written in `IDLE`; in `RUN` the write raises `SEQUENCE`. -/
def Obligations.KeyWordWrite : Prop :=
  ∀ (n : WordNo) (w : Word) (s : State),
    decodeWord (writeWord (BitVec.ofNat 7 (0x10 + n.val)) w) = .wrKey n w ∧
    (s.err.ecode = 0 → s.cipher.cst = .idle → ∃ c : CipherUnit,
      exec (.wrKey n w) s = .next (s.ciphered c) ∧ c = { s.cipher with key := c.key, kmask := c.kmask } ∧
      (∀ i : Fin 16, (blockByte c.key i).toNat =
        if i.val / 4 = n.val then w.toNat / 256 ^ (i.val % 4) % 256 else (blockByte s.cipher.key i).toNat) ∧
      ∀ m : Fin 4, c.kmask.getLsbD m.val = (s.cipher.kmask.getLsbD m.val || decide (m = n))) ∧
    (s.err.ecode = 0 → s.cipher.cst = .run →
      exec (.wrKey n w) s = .next (s.recorded 5 (BitVec.ofNat 7 (0x10 + n.val)) 0)) ∧
    (s.err.ecode ≠ 0 → exec (.wrKey n w) s = .next s)

/-- R163: the same for an IV word and its mask bit. -/
def Obligations.IvWordWrite : Prop :=
  ∀ (n : WordNo) (w : Word) (s : State),
    decodeWord (writeWord (BitVec.ofNat 7 (0x18 + n.val)) w) = .wrIv n w ∧
    (s.err.ecode = 0 → s.cipher.cst = .idle → ∃ c : CipherUnit,
      exec (.wrIv n w) s = .next (s.ciphered c) ∧ c = { s.cipher with iv := c.iv, imask := c.imask } ∧
      (∀ i : Fin 16, (blockByte c.iv i).toNat =
        if i.val / 4 = n.val then w.toNat / 256 ^ (i.val % 4) % 256 else (blockByte s.cipher.iv i).toNat) ∧
      ∀ m : Fin 4, c.imask.getLsbD m.val = (s.cipher.imask.getLsbD m.val || decide (m = n))) ∧
    (s.err.ecode = 0 → s.cipher.cst = .run →
      exec (.wrIv n w) s = .next (s.recorded 5 (BitVec.ofNat 7 (0x18 + n.val)) 0)) ∧
    (s.err.ecode ≠ 0 → exec (.wrIv n w) s = .next s)

/-- R165: a data-in word's four bytes are written in either sequencer state. -/
def Obligations.DinWordWrite : Prop :=
  ∀ (n : WordNo) (w : Word) (s : State),
    decodeWord (writeWord (BitVec.ofNat 7 (0x1C + n.val)) w) = .wrDin n w ∧
    (s.err.ecode = 0 → ∃ c : CipherUnit,
      exec (.wrDin n w) s = .next (s.ciphered c) ∧ c = { s.cipher with din := c.din } ∧
      ∀ i : Fin 16, (blockByte c.din i).toNat =
        if i.val / 4 = n.val then w.toNat / 256 ^ (i.val % 4) % 256 else (blockByte s.cipher.din i).toNat) ∧
    (s.err.ecode ≠ 0 → exec (.wrDin n w) s = .next s)

/-- R162. -/
def Obligations.KeyClearDestroysTheKey : Prop :=
  decodeWord 0x8300000020 = .keyClear ∧
  ∀ s : State,
    (s.err.ecode = 0 → s.cipher.cst = .idle →
      exec .keyClear s = .next (s.ciphered { s.cipher with key := ⟨0, 0, 0, 0⟩, kmask := 0 })) ∧
    (s.err.ecode = 0 → s.cipher.cst = .run → exec .keyClear s = .next (s.recorded 5 0x03 0x20)) ∧
    (s.err.ecode ≠ 0 → exec .keyClear s = .next s)

/-- R234: direction and tap are set and the mode is CBC; `ILLEGAL` for any other data value, before `SEQUENCE` in `RUN`. -/
def Obligations.CtrlWriteSetsDirectionAndTap : Prop :=
  (∀ (dir : Direction) (tap : Bool) (s : State),
    (s.err.ecode = 0 → s.cipher.cst = .idle →
      exec (.wrCtrl dir tap) s = .next (s.ciphered { s.cipher with dir := dir, mode := 0, tap := tap })) ∧
    (s.err.ecode = 0 → s.cipher.cst = .run → exec (.wrCtrl dir tap) s = .next (s.recorded 5 0x02 0)) ∧
    (s.err.ecode ≠ 0 → exec (.wrCtrl dir tap) s = .next s)) ∧
  ∀ data : Word, decodeWord (writeWord 0x02 data) =
    if data.toNat = 0x0 then .wrCtrl .encrypt false else if data.toNat = 0x1 then .wrCtrl .decrypt false
    else if data.toNat = 0x8 then .wrCtrl .encrypt true else if data.toNat = 0x9 then .wrCtrl .decrypt true
    else .wrIllegal 0x02 data

/-- R235: any 16-bit length is stored in `IDLE`; `ILLEGAL` for wider data, before `SEQUENCE` in `RUN`. -/
def Obligations.LenWriteStoresTheLength : Prop :=
  (∀ (len : Half) (s : State),
    (s.err.ecode = 0 → s.cipher.cst = .idle → exec (.wrLen len) s = .next (s.ciphered { s.cipher with len := len })) ∧
    (s.err.ecode = 0 → s.cipher.cst = .run → exec (.wrLen len) s = .next (s.recorded 5 0x05 0)) ∧
    (s.err.ecode ≠ 0 → exec (.wrLen len) s = .next s)) ∧
  ∀ data : Word, decodeWord (writeWord 0x05 data) =
    if data.toNat < 2 ^ 16 then .wrLen (BitVec.ofNat 16 data.toNat) else .wrIllegal 0x05 data

/-! ## Message commands (41_cipher.md section 4) -/

/-- R166: the three checks in their order, and the message that is opened when all pass. -/
def Obligations.CStartChecksThenOpensTheMessage : Prop :=
  decodeWord 0x8300000010 = .cStart ∧
  ∀ s : State,
    (s.err.ecode = 0 → s.cipher.cst = .idle → s.cipher.kmask.toNat = 15 → s.cipher.imask.toNat = 15 →
      s.cipher.len.toNat % 16 = 0 →
      exec .cStart s = .next (s.ciphered
        { s.cipher with cv := s.cipher.iv, rem := s.cipher.len, cst := .run, imask := 0, done := false })) ∧
    (s.err.ecode = 0 → s.cipher.cst = .run → exec .cStart s = .next (s.recorded 5 0x03 0x10)) ∧
    (s.err.ecode = 0 → s.cipher.cst = .idle → (s.cipher.kmask.toNat ≠ 15 ∨ s.cipher.imask.toNat ≠ 15) →
      exec .cStart s = .next (s.recorded 2 0x03 0x10)) ∧
    (s.err.ecode = 0 → s.cipher.cst = .idle → s.cipher.kmask.toNat = 15 → s.cipher.imask.toNat = 15 →
      s.cipher.len.toNat % 16 ≠ 0 → exec .cStart s = .next (s.recorded 3 0x03 0x10)) ∧
    (s.err.ecode ≠ 0 → exec .cStart s = .next s)

/-- R168: one block processed under CBC, encrypted or decrypted, the length accounted, the plaintext tapped; `SEQUENCE`
outside a message, `FRAMING` beyond its length. -/
def Obligations.CBlockProcessesOneBlock : Prop :=
  decodeWord 0x8300000011 = .cBlock ∧
  ∀ s : State,
    (s.err.ecode = 0 → s.cipher.cst = .run → 16 ≤ s.cipher.rem.toNat → s.cipher.dir = .encrypt →
      exec .cBlock s = .next
        { s with
          cipher :=
            { s.cipher with
              dout := blockEnc s.cipher.key (blockXor s.cipher.din s.cipher.cv),
              cv := blockEnc s.cipher.key (blockXor s.cipher.din s.cipher.cv),
              rem := BitVec.ofNat 16 (s.cipher.rem.toNat - 16) },
          ck := if s.cipher.tap then (blockBytes s.cipher.din).foldl absorb s.ck else s.ck }) ∧
    (s.err.ecode = 0 → s.cipher.cst = .run → 16 ≤ s.cipher.rem.toNat → s.cipher.dir = .decrypt →
      exec .cBlock s = .next
        { s with
          cipher :=
            { s.cipher with
              dout := blockXor (blockDec s.cipher.key s.cipher.din) s.cipher.cv,
              cv := s.cipher.din,
              rem := BitVec.ofNat 16 (s.cipher.rem.toNat - 16) },
          ck :=
            if s.cipher.tap then
              (blockBytes (blockXor (blockDec s.cipher.key s.cipher.din) s.cipher.cv)).foldl absorb s.ck
            else s.ck }) ∧
    (s.err.ecode = 0 → s.cipher.cst = .idle → exec .cBlock s = .next (s.recorded 5 0x03 0x11)) ∧
    (s.err.ecode = 0 → s.cipher.cst = .run → s.cipher.rem.toNat < 16 →
      exec .cBlock s = .next (s.recorded 3 0x03 0x11)) ∧
    (s.err.ecode ≠ 0 → exec .cBlock s = .next s)

/-- R173. -/
def Obligations.CFinishClosesACompleteMessage : Prop :=
  decodeWord 0x8300000012 = .cFinish ∧
  ∀ s : State,
    (s.err.ecode = 0 → s.cipher.cst = .run → s.cipher.rem.toNat = 0 →
      exec .cFinish s = .next (s.ciphered { s.cipher with cst := .idle, done := true })) ∧
    (s.err.ecode = 0 → s.cipher.cst = .idle → exec .cFinish s = .next (s.recorded 5 0x03 0x12)) ∧
    (s.err.ecode = 0 → s.cipher.cst = .run → s.cipher.rem.toNat ≠ 0 →
      exec .cFinish s = .next (s.recorded 3 0x03 0x12)) ∧
    (s.err.ecode ≠ 0 → exec .cFinish s = .next s)

/-- R174: in `IDLE` it does nothing, and it never faults. -/
def Obligations.CAbortLeavesTheMessage : Prop :=
  decodeWord 0x8300000013 = .cAbort ∧
  ∀ s : State,
    (s.err.ecode = 0 → exec .cAbort s = .next (s.ciphered { s.cipher with cst := .idle })) ∧
    (s.err.ecode = 0 → s.cipher.cst = .idle → exec .cAbort s = .next s) ∧
    (s.err.ecode ≠ 0 → exec .cAbort s = .next s)

/-- R175: the tap of a block has the effect on the checksum unit of sixteen `WR.CK_DATA8` with the plaintext bytes in order,
the input when encrypting and the new output when decrypting. -/
def Obligations.TapEqualsSixteenByteWrites : Prop :=
  ∀ s : State, s.err.ecode = 0 → s.cipher.cst = .run → 16 ≤ s.cipher.rem.toNat → s.cipher.tap = true →
    ∃ t u : State, exec .cBlock s = .next t ∧
      Host.Core.run Sys2Proof.core 16 (s.issue
        ((blockBytes (if s.cipher.dir = .encrypt then s.cipher.din else t.cipher.dout)).map
          fun b => writeWord 0x08 (BitVec.ofNat 32 b.toNat))) = .next u ∧
      t.ck = u.ck ∧ u.cipher = s.cipher ∧ u.err = s.err

/-- R190 items 3 and 4, for one block: with one key and input, different chaining values encrypt to different blocks, and a
change of the chaining value changes the decrypted block by the same difference. -/
def Obligations.ChainDifferencesShowInTheOutput : Prop :=
  ∀ (s : State) (chain : Block), s.err.ecode = 0 → s.cipher.cst = .run → 16 ≤ s.cipher.rem.toNat →
    ∃ t u : State, exec .cBlock s = .next t ∧ exec .cBlock (s.ciphered { s.cipher with cv := chain }) = .next u ∧
      (s.cipher.dir = .encrypt → chain ≠ s.cipher.cv → u.cipher.dout ≠ t.cipher.dout) ∧
      (s.cipher.dir = .decrypt → blockXor u.cipher.dout t.cipher.dout = blockXor chain s.cipher.cv)

/-! ## The block cipher (41_cipher.md section 5) -/

/-- R179: for each key the cipher is a permutation of the blocks and its inverse. -/
def Obligations.BlockCipherIsAPermutation : Prop :=
  ∀ k b : Block, blockDec k (blockEnc k b) = b ∧ blockEnc k (blockDec k b) = b

/-- R183 (the generating rule), R184, and every check value of R182, R188 and R189. -/
def Obligations.AesTablesAndCheckValues : Prop :=
  (∀ a : Byte, invSbox (sbox a) = a ∧ ∃ b : Byte, (if a = 0 then b = 0 else gmul a b = 1) ∧
    sbox a = b ^^^ b.rotateLeft 1 ^^^ b.rotateLeft 2 ^^^ b.rotateLeft 3 ^^^ b.rotateLeft 4 ^^^ 0x63) ∧
  (keyExpansion [0x16157E2B, 0xA6D2AE28, 0x8815F7AB, 0x3C4FCF09]).length = 44 ∧
  (keyExpansion [0x16157E2B, 0xA6D2AE28, 0x8815F7AB, 0x3C4FCF09])[4]? = some 0x17FEFAA0 ∧
  (keyExpansion [0x16157E2B, 0xA6D2AE28, 0x8815F7AB, 0x3C4FCF09])[5]? = some 0xB12C5488 ∧
  (keyExpansion [0x16157E2B, 0xA6D2AE28, 0x8815F7AB, 0x3C4FCF09])[6]? = some 0x3939A323 ∧
  (keyExpansion [0x16157E2B, 0xA6D2AE28, 0x8815F7AB, 0x3C4FCF09])[7]? = some 0x05766C2A ∧
  (keyExpansion [0x16157E2B, 0xA6D2AE28, 0x8815F7AB, 0x3C4FCF09])[43]? = some 0xA60C63B6 ∧
  blockEnc ⟨0x03020100, 0x07060504, 0x0B0A0908, 0x0F0E0D0C⟩ ⟨0x33221100, 0x77665544, 0xBBAA9988, 0xFFEEDDCC⟩ =
    ⟨0xD8E0C469, 0x30047B6A, 0x80B7CDD8, 0x5AC5B470⟩ ∧
  blockEnc ⟨0x16157E2B, 0xA6D2AE28, 0x8815F7AB, 0x3C4FCF09⟩ ⟨0xA8F64332, 0x8D305A88, 0xA2983131, 0x340737E0⟩ =
    ⟨0x1D842539, 0xFB09DC02, 0x978511DC, 0x320B6A19⟩ ∧
  blockEnc ⟨0, 0, 0, 0⟩ ⟨0, 0, 0, 0⟩ = ⟨0xD44BE966, 0x3B2C8AEF, 0x59FA4C88, 0x2E2B34CA⟩ ∧
  blockDec ⟨0x03020100, 0x07060504, 0x0B0A0908, 0x0F0E0D0C⟩ ⟨0xD8E0C469, 0x30047B6A, 0x80B7CDD8, 0x5AC5B470⟩ =
    ⟨0x33221100, 0x77665544, 0xBBAA9988, 0xFFEEDDCC⟩

/-- R190 item 1: decrypting an encrypted message under the same key and IV returns it, and the other way round. -/
def Obligations.CbcRoundTrip : Prop :=
  ∀ (key iv : Block) (blocks : List Block),
    cbcDecrypt key iv (cbcEncrypt key iv blocks) = blocks ∧ cbcEncrypt key iv (cbcDecrypt key iv blocks) = blocks

/-! ## The envelope sequences (43_envelope_sequences.md) -/

/-- R262: from a ready block, `ENV_ENCODE` reads no fault, then the CBC ciphertext of the plaintext, then its checksum, and
leaves the message closed. -/
def Obligations.EnvEncodeYieldsCiphertextAndChecksum : Prop :=
  ∀ (s : State) (key iv : Block) (plaintext : List Block), s.Ready → plaintext.length ≤ 4095 →
    ∃ u : State,
      Host.Core.run Sys2Proof.core (15 + 9 * plaintext.length) (s.issue (envEncode key iv plaintext)) = .next u ∧
      u.port = ⟨s.port.pending, s.port.rdata ++ [0] ++ wordsOfBlocks (cbcEncrypt key iv plaintext) ++
        [(checksum (bytesOfBlocks plaintext)).setWidth 32]⟩ ∧
      u.Ready ∧ u.cipher.done = true

/-- R263: from a ready block and a packet that passes the host's framing checks, `ENV_DECODE` reads no fault, then the CBC
plaintext, then no fault if the trailer is the checksum of header and plaintext, `INTEGRITY` if it is not. -/
def Obligations.EnvDecodeYieldsPlaintextAndVerdict : Prop :=
  ∀ (s : State) (key : Block) (p : List Byte) (len : Nat), s.Ready → frameCheck p = .ok len →
    ∃ u : State,
      Host.Core.run Sys2Proof.core (21 + 9 * (len / 16)) (s.issue (envDecode key p)) = .next u ∧
      u.port.pending = s.port.pending ∧
      u.port.rdata = s.port.rdata ++ [0] ++
        wordsOfBlocks (cbcDecrypt key (blockOfBytes ((p.drop 4).take 16)) (blocksOfBytes (len / 16) (p.drop 20))) ++
        [if (checksum (p.take 20 ++ bytesOfBlocks
              (cbcDecrypt key (blockOfBytes ((p.drop 4).take 16)) (blocksOfBytes (len / 16) (p.drop 20))))).toNat =
            (p.getD (20 + len) 0).toNat + 2 ^ 8 * (p.getD (21 + len) 0).toNat
          then 0 else 0x00000B04]

/-- R267: the numbers of transactions of the two sequences. -/
def Obligations.EnvelopeTransactionCounts : Prop :=
  (∀ (key iv : Block) (plaintext : List Block), (envEncode key iv plaintext).length = 15 + 9 * plaintext.length) ∧
  ∀ (key : Block) (p : List Byte) (len : Nat), frameCheck p = .ok len →
    (envDecode key p).length = 21 + 9 * (len / 16)

/-- R264 and R265: which packets pass the host's framing checks, and what padding gives; `full` is the open parameter
`PAD_FULL_BLOCK_WHEN_ALIGNED`. -/
def Obligations.HostFramingAndPadding : Prop :=
  (∀ (p : List Byte) (len : Nat), frameCheck p = .ok len ↔
    20 ≤ p.length ∧ len = (p.getD 2 0).toNat + 2 ^ 8 * (p.getD 3 0).toNat ∧ p.length = 20 + len + 2 ∧ len % 16 = 0) ∧
  ∀ (full : Bool) (payload : List Byte),
    (padPayload full payload).length % 16 = 0 ∧ (padPayload full payload).take payload.length = payload ∧
    (∀ b ∈ (padPayload full payload).drop payload.length, b = 0) ∧
    (full = false → (padPayload full payload).length < payload.length + 16) ∧
    (full = true → payload.length < (padPayload full payload).length ∧
      (padPayload full payload).length ≤ payload.length + 16)

/-! ## System commands and faults (42_system.md section 4, 60_exceptions.md) -/

/-- R230, R231: `NOP` changes nothing; `EACK` clears the fault record and nothing else, in every state. -/
def Obligations.NopAndEackEffects : Prop :=
  (decodeWord 0x8300000000 = .nop ∧ ∀ s : State, exec .nop s = .next s) ∧
  decodeWord 0x830000007E = .eack ∧
  ∀ s : State, exec .eack s = .next { s with err := { ecode := 0, eidx := 0, eop := 0 } }

/-- R297: while a fault is held every write is ignored, no second fault is recorded, and only the words of `EACK` and `SRST`
have their effect. -/
def Obligations.FaultedStateIgnoresWrites : Prop :=
  ∀ (s : State) (t : TWord) (rest : List HostEvent), s.port.pending = .transaction t :: rest → t.getLsbD 39 = true →
    s.err.ecode ≠ 0 →
    step s =
      if t.toNat = 0x830000007E then
        .next { s with err := { ecode := 0, eidx := 0, eop := 0 }, port := { s.port with pending := rest } }
      else if t.toNat = 0x830000007F then .next { State.reset with port := { s.port with pending := rest } }
      else .next { s with port := { s.port with pending := rest } }

/-- R296: a fault is precise. When a step raises one, its transaction was a write, the record names its index and, for a
command, its low data byte, and nothing else has changed. -/
def Obligations.FaultsArePrecise : Prop :=
  ∀ (s u : State) (t : TWord) (rest : List HostEvent), s.port.pending = .transaction t :: rest → s.err.ecode = 0 →
    step s = .next u → u.err.ecode ≠ 0 →
    t.getLsbD 39 = true ∧ u.err.eidx.toNat = t.toNat / 2 ^ 32 % 2 ^ 7 ∧
    u.err.eop.toNat = (if t.toNat / 2 ^ 32 % 2 ^ 7 = 0x03 then t.toNat % 2 ^ 8 else 0) ∧
    u.ck = s.ck ∧ u.cipher = s.cipher ∧ u.port = { s.port with pending := rest }

/-- R290: which operations raise which fault. -/
def Obligations.FaultCodesComeFromTheirOperations : Prop :=
  ∀ (s u : State) (t : TWord) (rest : List HostEvent), s.port.pending = .transaction t :: rest → s.err.ecode = 0 →
    step s = .next u → u.err.ecode ≠ 0 →
    (u.err.ecode = 1 ∧ mnemonicOf (decodeWord t) = "WR.ILLEGAL") ∨
    (u.err.ecode = 2 ∧ mnemonicOf (decodeWord t) = "C_START") ∨
    (u.err.ecode = 3 ∧ mnemonicOf (decodeWord t) ∈ ["C_START", "C_BLOCK", "C_FINISH"]) ∨
    (u.err.ecode = 4 ∧ mnemonicOf (decodeWord t) = "WR.CK_VERIFY") ∨
    (u.err.ecode = 5 ∧ mnemonicOf (decodeWord t) ∈
      ["WR.KEYn", "WR.IVn", "WR.CTRL", "WR.LEN", "KEY_CLEAR", "C_START", "C_BLOCK", "C_FINISH"])

/-! ## The whole machine -/

/-- R36, R160: from one step of a message to the next the key, the IV and their masks, the direction, mode, tap and length
are the same. -/
def Obligations.MessageParametersAreFrozen : Prop :=
  ∀ s u : State, s.cipher.cst = .run → step s = .next u → u.cipher.cst = .run →
    u.cipher.key = s.cipher.key ∧ u.cipher.kmask = s.cipher.kmask ∧ u.cipher.iv = s.cipher.iv ∧
    u.cipher.imask = s.cipher.imask ∧ u.cipher.dir = s.cipher.dir ∧ u.cipher.mode = s.cipher.mode ∧
    u.cipher.tap = s.cipher.tap ∧ u.cipher.len = s.cipher.len ∧ u.cipher.done = s.cipher.done

/-- R36: only `C_START` opens a message; only `C_FINISH` with nothing left, `C_ABORT`, `SRST` and `Reset` end one. -/
def Obligations.SequencerMovesOnlyByItsCommands : Prop :=
  ∀ s u : State, step s = .next u →
    (s.cipher.cst = .idle → u.cipher.cst = .run →
      ∃ t rest, s.port.pending = .transaction t :: rest ∧ decodeWord t = .cStart ∧ s.err.ecode = 0) ∧
    (s.cipher.cst = .run → u.cipher.cst = .idle →
      (∃ rest, s.port.pending = .reset :: rest) ∨
      ∃ t rest, s.port.pending = .transaction t :: rest ∧
        (decodeWord t = .srst ∨ (decodeWord t = .cAbort ∧ s.err.ecode = 0) ∨
          (decodeWord t = .cFinish ∧ s.err.ecode = 0 ∧ s.cipher.rem.toNat = 0)))

/-- R21, R43, R81 item 1: each piece of the block's state is changed only by the operations that the rules name for it (the
queue of transactions is the model's: log entry 1). -/
def Obligations.EachRegisterHasItsWriters : Prop :=
  ∀ (s u : State) (t : TWord) (rest : List HostEvent), s.port.pending = .transaction t :: rest → step s = .next u →
    (u.ck ≠ s.ck → mnemonicOf (decodeWord t) ∈ ["CK_INIT", "WR.CK_DATA8", "WR.CK_DATA32", "SRST"] ∨
      (decodeWord t = .cBlock ∧ s.cipher.tap = true)) ∧
    (u.cipher.key ≠ s.cipher.key → mnemonicOf (decodeWord t) ∈ ["WR.KEYn", "KEY_CLEAR", "SRST"]) ∧
    (u.cipher.kmask ≠ s.cipher.kmask → mnemonicOf (decodeWord t) ∈ ["WR.KEYn", "KEY_CLEAR", "SRST"]) ∧
    (u.cipher.iv ≠ s.cipher.iv → mnemonicOf (decodeWord t) ∈ ["WR.IVn", "SRST"]) ∧
    (u.cipher.imask ≠ s.cipher.imask → mnemonicOf (decodeWord t) ∈ ["WR.IVn", "C_START", "SRST"]) ∧
    (u.cipher.din ≠ s.cipher.din → mnemonicOf (decodeWord t) ∈ ["WR.DINn", "SRST"]) ∧
    (u.cipher.dout ≠ s.cipher.dout → mnemonicOf (decodeWord t) ∈ ["C_BLOCK", "SRST"]) ∧
    (u.cipher.cv ≠ s.cipher.cv → mnemonicOf (decodeWord t) ∈ ["C_START", "C_BLOCK", "SRST"]) ∧
    ((u.cipher.dir ≠ s.cipher.dir ∨ u.cipher.mode ≠ s.cipher.mode ∨ u.cipher.tap ≠ s.cipher.tap) →
      mnemonicOf (decodeWord t) ∈ ["WR.CTRL", "SRST"]) ∧
    (u.cipher.len ≠ s.cipher.len → mnemonicOf (decodeWord t) ∈ ["WR.LEN", "SRST"]) ∧
    (u.cipher.rem ≠ s.cipher.rem → mnemonicOf (decodeWord t) ∈ ["C_START", "C_BLOCK", "SRST"]) ∧
    (u.cipher.cst ≠ s.cipher.cst → mnemonicOf (decodeWord t) ∈ ["C_START", "C_FINISH", "C_ABORT", "SRST"]) ∧
    (u.cipher.done ≠ s.cipher.done → mnemonicOf (decodeWord t) ∈ ["C_START", "C_FINISH", "SRST"]) ∧
    (u.err ≠ s.err → mnemonicOf (decodeWord t) ∈ ["EACK", "SRST"] ∨ (s.err.ecode = 0 ∧ u.err.ecode ≠ 0))

/-- R47: every step keeps the invariants of the reachable state. -/
def Obligations.GoodStatesStayGood : Prop := ∀ s t : State, s.Good → step s = .next t → t.Good

/-- R47: the reset state meets the invariants. -/
def Obligations.ResetStateIsGood : Prop := State.reset.Good

/-- R27, R305: the key cannot be read. Two states that differ only in the key still differ only in the key after any step
but a `C_BLOCK`, so every read returns the same to the host. -/
def Obligations.KeyIsNeverReadBack : Prop :=
  ∀ (s : State) (key : Block), (∀ t rest, s.port.pending = .transaction t :: rest → decodeWord t ≠ .cBlock) →
    ∃ (u : State) (key' : Block), step s = .next u ∧
      step (s.ciphered { s.cipher with key := key }) = .next (u.ciphered { u.cipher with key := key' })
end

