-- ==== Sys2Proof/Laws/Decode.lean ====
section
/-! SUPPORT. The fields of a transaction word (30_encoding.md R101): packing and taking apart are inverse. -/

namespace Sys2Proof

/-- The bits of a packed word: data below, then the index, then the write bit. -/
theorem packWord_getLsbD (we : Bool) (idx : Idx) (data : Word) (i : Nat) :
    (packWord we idx data).getLsbD i =
      if i < 32 then data.getLsbD i else if i - 32 < 7 then idx.getLsbD (i - 32)
      else (BitVec.ofBool we).getLsbD (i - 32 - 7) := by
  rw [← BitVec.getLsbD_append]
  exact BitVec.getLsbD_append

@[simp] theorem weOf_packWord (we : Bool) (idx : Idx) (data : Word) : weOf (packWord we idx data) = we := by
  rw [weOf, packWord_getLsbD]
  cases we <;> rfl

@[simp] theorem idxOf_packWord (we : Bool) (idx : Idx) (data : Word) : idxOf (packWord we idx data) = idx := by
  apply BitVec.eq_of_getLsbD_eq
  intro i hi
  have h : ¬ 32 + i < 32 := by omega
  have e : 32 + i - 32 = i := by omega
  rw [idxOf, BitVec.getLsbD_extractLsb', packWord_getLsbD, if_neg h, e]
  simp [hi]

@[simp] theorem dataOf_packWord (we : Bool) (idx : Idx) (data : Word) : dataOf (packWord we idx data) = data := by
  apply BitVec.eq_of_getLsbD_eq
  intro i hi
  rw [dataOf, BitVec.getLsbD_extractLsb', Nat.zero_add, packWord_getLsbD, if_pos hi]
  simp [hi]

/-- A transaction word is the packing of its three fields. -/
theorem packWord_fields (t : TWord) : packWord (weOf t) (idxOf t) (dataOf t) = t := by
  apply BitVec.eq_of_getLsbD_eq
  intro i hi
  rw [packWord_getLsbD]
  simp only [weOf, idxOf, dataOf, BitVec.getLsbD_extractLsb']
  by_cases h1 : i < 32
  · simp [h1]
  · by_cases h2 : i - 32 < 7
    · have e : 32 + (i - 32) = i := by omega
      simp [h1, h2, e]
    · have e : i = 39 := by omega
      subst e
      simp

/-- Two transaction words with the same fields are the same. -/
theorem tword_ext {t u : TWord} (hw : weOf t = weOf u) (hi : idxOf t = idxOf u) (hd : dataOf t = dataOf u) : t = u := by
  rw [← packWord_fields t, ← packWord_fields u, hw, hi, hd]

@[simp] theorem decodeWord_readWord (idx : Idx) : decodeWord (readWord idx) = decodeRead idx := by
  simp [decodeWord, readWord]

@[simp] theorem decodeWord_writeWord (idx : Idx) (data : Word) :
    decodeWord (writeWord idx data) = decodeWrite idx data := by
  simp [decodeWord, writeWord]

/-- The five stored bytes of a word read back as the word. -/
theorem decode_bytesOfWord (t : TWord) (rest : List Byte) :
    decode (bytesOfWord t ++ rest) = .ok (decodeWord t, rest) := by
  have h : (t.extractLsb' 32 8 ++ t.extractLsb' 24 8 ++ t.extractLsb' 16 8 ++ t.extractLsb' 8 8 ++
      t.extractLsb' 0 8 : BitVec (8 + 8 + 8 + 8 + 8)) = t := by
    rw [BitVec.extractLsb'_append_extractLsb'_eq_extractLsb' (by rfl),
      BitVec.extractLsb'_append_extractLsb'_eq_extractLsb' (by rfl),
      BitVec.extractLsb'_append_extractLsb'_eq_extractLsb' (by rfl),
      BitVec.extractLsb'_append_extractLsb'_eq_extractLsb' (by rfl)]
    apply BitVec.eq_of_getLsbD_eq
    intro i hi
    simp [hi]
  exact congrArg (fun u => Except.ok (decodeWord u, rest)) h

end Sys2Proof
end

