-- ==== Sys2Proof/Laws/State.lean ====
section
/-! SUPPORT. What each update leaves in each field: one lemma per field per update, true by `rfl`. -/

namespace Sys2Proof.Machine

/-! ## `State.withCk` -/

@[simp] theorem State.withCk_ck (s : State) (k : CkUnit) :
    (s.withCk k).ck = k := rfl
@[simp] theorem State.withCk_cipher (s : State) (k : CkUnit) :
    (s.withCk k).cipher = s.cipher := rfl
@[simp] theorem State.withCk_err (s : State) (k : CkUnit) :
    (s.withCk k).err = s.err := rfl
@[simp] theorem State.withCk_port (s : State) (k : CkUnit) :
    (s.withCk k).port = s.port := rfl

/-! ## `State.withCipher` -/

@[simp] theorem State.withCipher_ck (s : State) (c : CipherUnit) :
    (s.withCipher c).ck = s.ck := rfl
@[simp] theorem State.withCipher_cipher (s : State) (c : CipherUnit) :
    (s.withCipher c).cipher = c := rfl
@[simp] theorem State.withCipher_err (s : State) (c : CipherUnit) :
    (s.withCipher c).err = s.err := rfl
@[simp] theorem State.withCipher_port (s : State) (c : CipherUnit) :
    (s.withCipher c).port = s.port := rfl

/-! ## `State.withErr` -/

@[simp] theorem State.withErr_ck (s : State) (e : FaultRecord) :
    (s.withErr e).ck = s.ck := rfl
@[simp] theorem State.withErr_cipher (s : State) (e : FaultRecord) :
    (s.withErr e).cipher = s.cipher := rfl
@[simp] theorem State.withErr_err (s : State) (e : FaultRecord) :
    (s.withErr e).err = e := rfl
@[simp] theorem State.withErr_port (s : State) (e : FaultRecord) :
    (s.withErr e).port = s.port := rfl

/-! ## `State.withPort` -/

@[simp] theorem State.withPort_ck (s : State) (p : Port) :
    (s.withPort p).ck = s.ck := rfl
@[simp] theorem State.withPort_cipher (s : State) (p : Port) :
    (s.withPort p).cipher = s.cipher := rfl
@[simp] theorem State.withPort_err (s : State) (p : Port) :
    (s.withPort p).err = s.err := rfl
@[simp] theorem State.withPort_port (s : State) (p : Port) :
    (s.withPort p).port = p := rfl

/-! ## `returnRead`, `raiseFault`, `ackFault`, `resetBlock` -/

@[simp] theorem returnRead_ck (v : Word) (s : State) :
    (returnRead v s).ck = s.ck := rfl
@[simp] theorem returnRead_cipher (v : Word) (s : State) :
    (returnRead v s).cipher = s.cipher := rfl
@[simp] theorem returnRead_err (v : Word) (s : State) :
    (returnRead v s).err = s.err := rfl
@[simp] theorem returnRead_port (v : Word) (s : State) :
    (returnRead v s).port = { s.port with rdata := s.port.rdata ++ [v] } := rfl
@[simp] theorem raiseFault_ck (code : FaultCode) (idx : Idx) (data : Word) (s : State) :
    (raiseFault code idx data s).ck = s.ck := rfl
@[simp] theorem raiseFault_cipher (code : FaultCode) (idx : Idx) (data : Word) (s : State) :
    (raiseFault code idx data s).cipher = s.cipher := rfl
@[simp] theorem raiseFault_err (code : FaultCode) (idx : Idx) (data : Word) (s : State) :
    (raiseFault code idx data s).err = { ecode := code.toBits, eidx := idx, eop := if idx = Reg.cmd then data.setWidth 8 else 0 } := rfl
@[simp] theorem raiseFault_port (code : FaultCode) (idx : Idx) (data : Word) (s : State) :
    (raiseFault code idx data s).port = s.port := rfl
@[simp] theorem ackFault_ck (s : State) :
    (ackFault s).ck = s.ck := rfl
@[simp] theorem ackFault_cipher (s : State) :
    (ackFault s).cipher = s.cipher := rfl
@[simp] theorem ackFault_err (s : State) :
    (ackFault s).err = FaultRecord.none := rfl
@[simp] theorem ackFault_port (s : State) :
    (ackFault s).port = s.port := rfl
@[simp] theorem resetBlock_ck (s : State) :
    (resetBlock s).ck = CkUnit.seeded := rfl
@[simp] theorem resetBlock_cipher (s : State) :
    (resetBlock s).cipher = CipherUnit.cleared := rfl
@[simp] theorem resetBlock_err (s : State) :
    (resetBlock s).err = FaultRecord.none := rfl
@[simp] theorem resetBlock_port (s : State) :
    (resetBlock s).port = s.port := rfl

/-! ## `CipherUnit.writeKey` -/

@[simp] theorem CipherUnit.writeKey_key (c : CipherUnit) (n : WordNo) (w : Word) :
    (c.writeKey n w).key = setBlockWord c.key n w := rfl
@[simp] theorem CipherUnit.writeKey_kmask (c : CipherUnit) (n : WordNo) (w : Word) :
    (c.writeKey n w).kmask = setMaskBit c.kmask n := rfl
@[simp] theorem CipherUnit.writeKey_iv (c : CipherUnit) (n : WordNo) (w : Word) :
    (c.writeKey n w).iv = c.iv := rfl
@[simp] theorem CipherUnit.writeKey_imask (c : CipherUnit) (n : WordNo) (w : Word) :
    (c.writeKey n w).imask = c.imask := rfl
@[simp] theorem CipherUnit.writeKey_din (c : CipherUnit) (n : WordNo) (w : Word) :
    (c.writeKey n w).din = c.din := rfl
@[simp] theorem CipherUnit.writeKey_dout (c : CipherUnit) (n : WordNo) (w : Word) :
    (c.writeKey n w).dout = c.dout := rfl
@[simp] theorem CipherUnit.writeKey_cv (c : CipherUnit) (n : WordNo) (w : Word) :
    (c.writeKey n w).cv = c.cv := rfl
@[simp] theorem CipherUnit.writeKey_dir (c : CipherUnit) (n : WordNo) (w : Word) :
    (c.writeKey n w).dir = c.dir := rfl
@[simp] theorem CipherUnit.writeKey_mode (c : CipherUnit) (n : WordNo) (w : Word) :
    (c.writeKey n w).mode = c.mode := rfl
@[simp] theorem CipherUnit.writeKey_tap (c : CipherUnit) (n : WordNo) (w : Word) :
    (c.writeKey n w).tap = c.tap := rfl
@[simp] theorem CipherUnit.writeKey_len (c : CipherUnit) (n : WordNo) (w : Word) :
    (c.writeKey n w).len = c.len := rfl
@[simp] theorem CipherUnit.writeKey_rem (c : CipherUnit) (n : WordNo) (w : Word) :
    (c.writeKey n w).rem = c.rem := rfl
@[simp] theorem CipherUnit.writeKey_cst (c : CipherUnit) (n : WordNo) (w : Word) :
    (c.writeKey n w).cst = c.cst := rfl
@[simp] theorem CipherUnit.writeKey_done (c : CipherUnit) (n : WordNo) (w : Word) :
    (c.writeKey n w).done = c.done := rfl

/-! ## `CipherUnit.writeIv` -/

@[simp] theorem CipherUnit.writeIv_key (c : CipherUnit) (n : WordNo) (w : Word) :
    (c.writeIv n w).key = c.key := rfl
@[simp] theorem CipherUnit.writeIv_kmask (c : CipherUnit) (n : WordNo) (w : Word) :
    (c.writeIv n w).kmask = c.kmask := rfl
@[simp] theorem CipherUnit.writeIv_iv (c : CipherUnit) (n : WordNo) (w : Word) :
    (c.writeIv n w).iv = setBlockWord c.iv n w := rfl
@[simp] theorem CipherUnit.writeIv_imask (c : CipherUnit) (n : WordNo) (w : Word) :
    (c.writeIv n w).imask = setMaskBit c.imask n := rfl
@[simp] theorem CipherUnit.writeIv_din (c : CipherUnit) (n : WordNo) (w : Word) :
    (c.writeIv n w).din = c.din := rfl
@[simp] theorem CipherUnit.writeIv_dout (c : CipherUnit) (n : WordNo) (w : Word) :
    (c.writeIv n w).dout = c.dout := rfl
@[simp] theorem CipherUnit.writeIv_cv (c : CipherUnit) (n : WordNo) (w : Word) :
    (c.writeIv n w).cv = c.cv := rfl
@[simp] theorem CipherUnit.writeIv_dir (c : CipherUnit) (n : WordNo) (w : Word) :
    (c.writeIv n w).dir = c.dir := rfl
@[simp] theorem CipherUnit.writeIv_mode (c : CipherUnit) (n : WordNo) (w : Word) :
    (c.writeIv n w).mode = c.mode := rfl
@[simp] theorem CipherUnit.writeIv_tap (c : CipherUnit) (n : WordNo) (w : Word) :
    (c.writeIv n w).tap = c.tap := rfl
@[simp] theorem CipherUnit.writeIv_len (c : CipherUnit) (n : WordNo) (w : Word) :
    (c.writeIv n w).len = c.len := rfl
@[simp] theorem CipherUnit.writeIv_rem (c : CipherUnit) (n : WordNo) (w : Word) :
    (c.writeIv n w).rem = c.rem := rfl
@[simp] theorem CipherUnit.writeIv_cst (c : CipherUnit) (n : WordNo) (w : Word) :
    (c.writeIv n w).cst = c.cst := rfl
@[simp] theorem CipherUnit.writeIv_done (c : CipherUnit) (n : WordNo) (w : Word) :
    (c.writeIv n w).done = c.done := rfl

/-! ## `CipherUnit.writeDin` -/

@[simp] theorem CipherUnit.writeDin_key (c : CipherUnit) (n : WordNo) (w : Word) :
    (c.writeDin n w).key = c.key := rfl
@[simp] theorem CipherUnit.writeDin_kmask (c : CipherUnit) (n : WordNo) (w : Word) :
    (c.writeDin n w).kmask = c.kmask := rfl
@[simp] theorem CipherUnit.writeDin_iv (c : CipherUnit) (n : WordNo) (w : Word) :
    (c.writeDin n w).iv = c.iv := rfl
@[simp] theorem CipherUnit.writeDin_imask (c : CipherUnit) (n : WordNo) (w : Word) :
    (c.writeDin n w).imask = c.imask := rfl
@[simp] theorem CipherUnit.writeDin_din (c : CipherUnit) (n : WordNo) (w : Word) :
    (c.writeDin n w).din = setBlockWord c.din n w := rfl
@[simp] theorem CipherUnit.writeDin_dout (c : CipherUnit) (n : WordNo) (w : Word) :
    (c.writeDin n w).dout = c.dout := rfl
@[simp] theorem CipherUnit.writeDin_cv (c : CipherUnit) (n : WordNo) (w : Word) :
    (c.writeDin n w).cv = c.cv := rfl
@[simp] theorem CipherUnit.writeDin_dir (c : CipherUnit) (n : WordNo) (w : Word) :
    (c.writeDin n w).dir = c.dir := rfl
@[simp] theorem CipherUnit.writeDin_mode (c : CipherUnit) (n : WordNo) (w : Word) :
    (c.writeDin n w).mode = c.mode := rfl
@[simp] theorem CipherUnit.writeDin_tap (c : CipherUnit) (n : WordNo) (w : Word) :
    (c.writeDin n w).tap = c.tap := rfl
@[simp] theorem CipherUnit.writeDin_len (c : CipherUnit) (n : WordNo) (w : Word) :
    (c.writeDin n w).len = c.len := rfl
@[simp] theorem CipherUnit.writeDin_rem (c : CipherUnit) (n : WordNo) (w : Word) :
    (c.writeDin n w).rem = c.rem := rfl
@[simp] theorem CipherUnit.writeDin_cst (c : CipherUnit) (n : WordNo) (w : Word) :
    (c.writeDin n w).cst = c.cst := rfl
@[simp] theorem CipherUnit.writeDin_done (c : CipherUnit) (n : WordNo) (w : Word) :
    (c.writeDin n w).done = c.done := rfl

/-! ## `CipherUnit.clearKey` -/

@[simp] theorem CipherUnit.clearKey_key (c : CipherUnit) :
    (c.clearKey).key = Block.zero := rfl
@[simp] theorem CipherUnit.clearKey_kmask (c : CipherUnit) :
    (c.clearKey).kmask = 0 := rfl
@[simp] theorem CipherUnit.clearKey_iv (c : CipherUnit) :
    (c.clearKey).iv = c.iv := rfl
@[simp] theorem CipherUnit.clearKey_imask (c : CipherUnit) :
    (c.clearKey).imask = c.imask := rfl
@[simp] theorem CipherUnit.clearKey_din (c : CipherUnit) :
    (c.clearKey).din = c.din := rfl
@[simp] theorem CipherUnit.clearKey_dout (c : CipherUnit) :
    (c.clearKey).dout = c.dout := rfl
@[simp] theorem CipherUnit.clearKey_cv (c : CipherUnit) :
    (c.clearKey).cv = c.cv := rfl
@[simp] theorem CipherUnit.clearKey_dir (c : CipherUnit) :
    (c.clearKey).dir = c.dir := rfl
@[simp] theorem CipherUnit.clearKey_mode (c : CipherUnit) :
    (c.clearKey).mode = c.mode := rfl
@[simp] theorem CipherUnit.clearKey_tap (c : CipherUnit) :
    (c.clearKey).tap = c.tap := rfl
@[simp] theorem CipherUnit.clearKey_len (c : CipherUnit) :
    (c.clearKey).len = c.len := rfl
@[simp] theorem CipherUnit.clearKey_rem (c : CipherUnit) :
    (c.clearKey).rem = c.rem := rfl
@[simp] theorem CipherUnit.clearKey_cst (c : CipherUnit) :
    (c.clearKey).cst = c.cst := rfl
@[simp] theorem CipherUnit.clearKey_done (c : CipherUnit) :
    (c.clearKey).done = c.done := rfl

/-! ## `CipherUnit.setCtrl` -/

@[simp] theorem CipherUnit.setCtrl_key (c : CipherUnit) (dir : Direction) (tap : Bool) :
    (c.setCtrl dir tap).key = c.key := rfl
@[simp] theorem CipherUnit.setCtrl_kmask (c : CipherUnit) (dir : Direction) (tap : Bool) :
    (c.setCtrl dir tap).kmask = c.kmask := rfl
@[simp] theorem CipherUnit.setCtrl_iv (c : CipherUnit) (dir : Direction) (tap : Bool) :
    (c.setCtrl dir tap).iv = c.iv := rfl
@[simp] theorem CipherUnit.setCtrl_imask (c : CipherUnit) (dir : Direction) (tap : Bool) :
    (c.setCtrl dir tap).imask = c.imask := rfl
@[simp] theorem CipherUnit.setCtrl_din (c : CipherUnit) (dir : Direction) (tap : Bool) :
    (c.setCtrl dir tap).din = c.din := rfl
@[simp] theorem CipherUnit.setCtrl_dout (c : CipherUnit) (dir : Direction) (tap : Bool) :
    (c.setCtrl dir tap).dout = c.dout := rfl
@[simp] theorem CipherUnit.setCtrl_cv (c : CipherUnit) (dir : Direction) (tap : Bool) :
    (c.setCtrl dir tap).cv = c.cv := rfl
@[simp] theorem CipherUnit.setCtrl_dir (c : CipherUnit) (dir : Direction) (tap : Bool) :
    (c.setCtrl dir tap).dir = dir := rfl
@[simp] theorem CipherUnit.setCtrl_mode (c : CipherUnit) (dir : Direction) (tap : Bool) :
    (c.setCtrl dir tap).mode = 0 := rfl
@[simp] theorem CipherUnit.setCtrl_tap (c : CipherUnit) (dir : Direction) (tap : Bool) :
    (c.setCtrl dir tap).tap = tap := rfl
@[simp] theorem CipherUnit.setCtrl_len (c : CipherUnit) (dir : Direction) (tap : Bool) :
    (c.setCtrl dir tap).len = c.len := rfl
@[simp] theorem CipherUnit.setCtrl_rem (c : CipherUnit) (dir : Direction) (tap : Bool) :
    (c.setCtrl dir tap).rem = c.rem := rfl
@[simp] theorem CipherUnit.setCtrl_cst (c : CipherUnit) (dir : Direction) (tap : Bool) :
    (c.setCtrl dir tap).cst = c.cst := rfl
@[simp] theorem CipherUnit.setCtrl_done (c : CipherUnit) (dir : Direction) (tap : Bool) :
    (c.setCtrl dir tap).done = c.done := rfl

/-! ## `CipherUnit.setLen` -/

@[simp] theorem CipherUnit.setLen_key (c : CipherUnit) (v : Half) :
    (c.setLen v).key = c.key := rfl
@[simp] theorem CipherUnit.setLen_kmask (c : CipherUnit) (v : Half) :
    (c.setLen v).kmask = c.kmask := rfl
@[simp] theorem CipherUnit.setLen_iv (c : CipherUnit) (v : Half) :
    (c.setLen v).iv = c.iv := rfl
@[simp] theorem CipherUnit.setLen_imask (c : CipherUnit) (v : Half) :
    (c.setLen v).imask = c.imask := rfl
@[simp] theorem CipherUnit.setLen_din (c : CipherUnit) (v : Half) :
    (c.setLen v).din = c.din := rfl
@[simp] theorem CipherUnit.setLen_dout (c : CipherUnit) (v : Half) :
    (c.setLen v).dout = c.dout := rfl
@[simp] theorem CipherUnit.setLen_cv (c : CipherUnit) (v : Half) :
    (c.setLen v).cv = c.cv := rfl
@[simp] theorem CipherUnit.setLen_dir (c : CipherUnit) (v : Half) :
    (c.setLen v).dir = c.dir := rfl
@[simp] theorem CipherUnit.setLen_mode (c : CipherUnit) (v : Half) :
    (c.setLen v).mode = c.mode := rfl
@[simp] theorem CipherUnit.setLen_tap (c : CipherUnit) (v : Half) :
    (c.setLen v).tap = c.tap := rfl
@[simp] theorem CipherUnit.setLen_len (c : CipherUnit) (v : Half) :
    (c.setLen v).len = v := rfl
@[simp] theorem CipherUnit.setLen_rem (c : CipherUnit) (v : Half) :
    (c.setLen v).rem = c.rem := rfl
@[simp] theorem CipherUnit.setLen_cst (c : CipherUnit) (v : Half) :
    (c.setLen v).cst = c.cst := rfl
@[simp] theorem CipherUnit.setLen_done (c : CipherUnit) (v : Half) :
    (c.setLen v).done = c.done := rfl

/-! ## `CipherUnit.openMessage` -/

@[simp] theorem CipherUnit.openMessage_key (c : CipherUnit) :
    (c.openMessage).key = c.key := rfl
@[simp] theorem CipherUnit.openMessage_kmask (c : CipherUnit) :
    (c.openMessage).kmask = c.kmask := rfl
@[simp] theorem CipherUnit.openMessage_iv (c : CipherUnit) :
    (c.openMessage).iv = c.iv := rfl
@[simp] theorem CipherUnit.openMessage_imask (c : CipherUnit) :
    (c.openMessage).imask = 0 := rfl
@[simp] theorem CipherUnit.openMessage_din (c : CipherUnit) :
    (c.openMessage).din = c.din := rfl
@[simp] theorem CipherUnit.openMessage_dout (c : CipherUnit) :
    (c.openMessage).dout = c.dout := rfl
@[simp] theorem CipherUnit.openMessage_cv (c : CipherUnit) :
    (c.openMessage).cv = c.iv := rfl
@[simp] theorem CipherUnit.openMessage_dir (c : CipherUnit) :
    (c.openMessage).dir = c.dir := rfl
@[simp] theorem CipherUnit.openMessage_mode (c : CipherUnit) :
    (c.openMessage).mode = c.mode := rfl
@[simp] theorem CipherUnit.openMessage_tap (c : CipherUnit) :
    (c.openMessage).tap = c.tap := rfl
@[simp] theorem CipherUnit.openMessage_len (c : CipherUnit) :
    (c.openMessage).len = c.len := rfl
@[simp] theorem CipherUnit.openMessage_rem (c : CipherUnit) :
    (c.openMessage).rem = c.len := rfl
@[simp] theorem CipherUnit.openMessage_cst (c : CipherUnit) :
    (c.openMessage).cst = .run := rfl
@[simp] theorem CipherUnit.openMessage_done (c : CipherUnit) :
    (c.openMessage).done = false := rfl

/-! ## `CipherUnit.closeMessage` -/

@[simp] theorem CipherUnit.closeMessage_key (c : CipherUnit) :
    (c.closeMessage).key = c.key := rfl
@[simp] theorem CipherUnit.closeMessage_kmask (c : CipherUnit) :
    (c.closeMessage).kmask = c.kmask := rfl
@[simp] theorem CipherUnit.closeMessage_iv (c : CipherUnit) :
    (c.closeMessage).iv = c.iv := rfl
@[simp] theorem CipherUnit.closeMessage_imask (c : CipherUnit) :
    (c.closeMessage).imask = c.imask := rfl
@[simp] theorem CipherUnit.closeMessage_din (c : CipherUnit) :
    (c.closeMessage).din = c.din := rfl
@[simp] theorem CipherUnit.closeMessage_dout (c : CipherUnit) :
    (c.closeMessage).dout = c.dout := rfl
@[simp] theorem CipherUnit.closeMessage_cv (c : CipherUnit) :
    (c.closeMessage).cv = c.cv := rfl
@[simp] theorem CipherUnit.closeMessage_dir (c : CipherUnit) :
    (c.closeMessage).dir = c.dir := rfl
@[simp] theorem CipherUnit.closeMessage_mode (c : CipherUnit) :
    (c.closeMessage).mode = c.mode := rfl
@[simp] theorem CipherUnit.closeMessage_tap (c : CipherUnit) :
    (c.closeMessage).tap = c.tap := rfl
@[simp] theorem CipherUnit.closeMessage_len (c : CipherUnit) :
    (c.closeMessage).len = c.len := rfl
@[simp] theorem CipherUnit.closeMessage_rem (c : CipherUnit) :
    (c.closeMessage).rem = c.rem := rfl
@[simp] theorem CipherUnit.closeMessage_cst (c : CipherUnit) :
    (c.closeMessage).cst = .idle := rfl
@[simp] theorem CipherUnit.closeMessage_done (c : CipherUnit) :
    (c.closeMessage).done = true := rfl

/-! ## `CipherUnit.leaveMessage` -/

@[simp] theorem CipherUnit.leaveMessage_key (c : CipherUnit) :
    (c.leaveMessage).key = c.key := rfl
@[simp] theorem CipherUnit.leaveMessage_kmask (c : CipherUnit) :
    (c.leaveMessage).kmask = c.kmask := rfl
@[simp] theorem CipherUnit.leaveMessage_iv (c : CipherUnit) :
    (c.leaveMessage).iv = c.iv := rfl
@[simp] theorem CipherUnit.leaveMessage_imask (c : CipherUnit) :
    (c.leaveMessage).imask = c.imask := rfl
@[simp] theorem CipherUnit.leaveMessage_din (c : CipherUnit) :
    (c.leaveMessage).din = c.din := rfl
@[simp] theorem CipherUnit.leaveMessage_dout (c : CipherUnit) :
    (c.leaveMessage).dout = c.dout := rfl
@[simp] theorem CipherUnit.leaveMessage_cv (c : CipherUnit) :
    (c.leaveMessage).cv = c.cv := rfl
@[simp] theorem CipherUnit.leaveMessage_dir (c : CipherUnit) :
    (c.leaveMessage).dir = c.dir := rfl
@[simp] theorem CipherUnit.leaveMessage_mode (c : CipherUnit) :
    (c.leaveMessage).mode = c.mode := rfl
@[simp] theorem CipherUnit.leaveMessage_tap (c : CipherUnit) :
    (c.leaveMessage).tap = c.tap := rfl
@[simp] theorem CipherUnit.leaveMessage_len (c : CipherUnit) :
    (c.leaveMessage).len = c.len := rfl
@[simp] theorem CipherUnit.leaveMessage_rem (c : CipherUnit) :
    (c.leaveMessage).rem = c.rem := rfl
@[simp] theorem CipherUnit.leaveMessage_cst (c : CipherUnit) :
    (c.leaveMessage).cst = .idle := rfl
@[simp] theorem CipherUnit.leaveMessage_done (c : CipherUnit) :
    (c.leaveMessage).done = c.done := rfl

/-! ## `CipherUnit.processBlock` -/

@[simp] theorem CipherUnit.processBlock_key (c : CipherUnit) :
    (c.processBlock).key = c.key := rfl
@[simp] theorem CipherUnit.processBlock_kmask (c : CipherUnit) :
    (c.processBlock).kmask = c.kmask := rfl
@[simp] theorem CipherUnit.processBlock_iv (c : CipherUnit) :
    (c.processBlock).iv = c.iv := rfl
@[simp] theorem CipherUnit.processBlock_imask (c : CipherUnit) :
    (c.processBlock).imask = c.imask := rfl
@[simp] theorem CipherUnit.processBlock_din (c : CipherUnit) :
    (c.processBlock).din = c.din := rfl
@[simp] theorem CipherUnit.processBlock_dout (c : CipherUnit) :
    (c.processBlock).dout = c.blockResult := rfl
@[simp] theorem CipherUnit.processBlock_cv (c : CipherUnit) :
    (c.processBlock).cv = c.nextChain := rfl
@[simp] theorem CipherUnit.processBlock_dir (c : CipherUnit) :
    (c.processBlock).dir = c.dir := rfl
@[simp] theorem CipherUnit.processBlock_mode (c : CipherUnit) :
    (c.processBlock).mode = c.mode := rfl
@[simp] theorem CipherUnit.processBlock_tap (c : CipherUnit) :
    (c.processBlock).tap = c.tap := rfl
@[simp] theorem CipherUnit.processBlock_len (c : CipherUnit) :
    (c.processBlock).len = c.len := rfl
@[simp] theorem CipherUnit.processBlock_rem (c : CipherUnit) :
    (c.processBlock).rem = c.rem - 16 := rfl
@[simp] theorem CipherUnit.processBlock_cst (c : CipherUnit) :
    (c.processBlock).cst = c.cst := rfl
@[simp] theorem CipherUnit.processBlock_done (c : CipherUnit) :
    (c.processBlock).done = c.done := rfl

end Sys2Proof.Machine
end

