-- ==== Sys2Proof/Laws/Ops.lean ====
section
/-! SUPPORT. For each shared operation, one lemma that says what it can do; later proofs cite these and unfold nothing. -/

namespace Sys2Proof.Machine

/-! ## Flags -/

theorem faulted_eq_false {e : FaultRecord} (h : e.ecode = 0) : faulted e = false := by simp [faulted, h]

theorem faulted_eq_true {e : FaultRecord} (h : e.ecode ≠ 0) : faulted e = true := by simpa [faulted] using h

theorem faulted_iff (e : FaultRecord) : faulted e = true ↔ e.ecode ≠ 0 := by simp [faulted]

theorem running_iff (c : CipherUnit) : running c = true ↔ c.cst = .run := by simp [running]

theorem running_eq_false {c : CipherUnit} (h : c.cst = .idle) : running c = false := by simp [running, h]

theorem running_eq_true {c : CipherUnit} (h : c.cst = .run) : running c = true := by simp [running, h]

theorem keyValid_iff (c : CipherUnit) : keyValid c = true ↔ c.kmask = 0b1111#4 := by simp [keyValid]

theorem ivValid_iff (c : CipherUnit) : ivValid c = true ↔ c.imask = 0b1111#4 := by simp [ivValid]

/-! ## Guards -/

theorem acceptWrite_unfaulted {s : State} (h : s.err.ecode = 0) (f : State → State) : acceptWrite s f = f s := by
  simp [acceptWrite, faulted_eq_false h]

theorem acceptWrite_faulted {s : State} (h : s.err.ecode ≠ 0) (f : State → State) : acceptWrite s f = s := by
  simp [acceptWrite, faulted_eq_true h]

/-- A write is ignored because a fault is held, or it is performed. -/
theorem acceptWrite_cases (s : State) (f : State → State) :
    (s.err.ecode ≠ 0 ∧ acceptWrite s f = s) ∨ (s.err.ecode = 0 ∧ acceptWrite s f = f s) := by
  by_cases h : s.err.ecode = 0
  · exact .inr ⟨h, acceptWrite_unfaulted h f⟩
  · exact .inl ⟨h, acceptWrite_faulted h f⟩

theorem whenIdle_idle {s : State} (h : s.cipher.cst = .idle) (idx : Idx) (data : Word) (f : State → State) :
    whenIdle idx data s f = f s := by simp [whenIdle, running_eq_false h]

theorem whenIdle_run {s : State} (h : s.cipher.cst = .run) (idx : Idx) (data : Word) (f : State → State) :
    whenIdle idx data s f = raiseFault .sequence idx data s := by simp [whenIdle, running_eq_true h]

/-- An `IDLE`-only operation faults in `RUN`, or it is performed. -/
theorem whenIdle_cases (idx : Idx) (data : Word) (s : State) (f : State → State) :
    (s.cipher.cst = .run ∧ whenIdle idx data s f = raiseFault .sequence idx data s) ∨
      (s.cipher.cst = .idle ∧ whenIdle idx data s f = f s) := by
  cases h : s.cipher.cst
  · exact .inr ⟨rfl, whenIdle_idle h idx data f⟩
  · exact .inl ⟨rfl, whenIdle_run h idx data f⟩

theorem whenRunning_run {s : State} (h : s.cipher.cst = .run) (op : Byte) (f : State → State) :
    whenRunning op s f = f s := by simp [whenRunning, running_eq_true h]

theorem whenRunning_idle {s : State} (h : s.cipher.cst = .idle) (op : Byte) (f : State → State) :
    whenRunning op s f = raiseFault .sequence Reg.cmd (commandData op) s := by
  simp [whenRunning, running_eq_false h]

/-- A `RUN`-only command faults in `IDLE`, or it is performed. -/
theorem whenRunning_cases (op : Byte) (s : State) (f : State → State) :
    (s.cipher.cst = .idle ∧ whenRunning op s f = raiseFault .sequence Reg.cmd (commandData op) s) ∨
      (s.cipher.cst = .run ∧ whenRunning op s f = f s) := by
  cases h : s.cipher.cst
  · exact .inl ⟨rfl, whenRunning_idle h op f⟩
  · exact .inr ⟨rfl, whenRunning_run h op f⟩

/-- A fault code is never recorded as 0, and never above 5. -/
theorem FaultCode.toBits_range (code : FaultCode) : code.toBits ≠ 0 ∧ code.toBits.toNat ≤ 5 := by
  cases code <;> decide

/-! ## Bytes and words -/

theorem byteOf_wordOfBytes (b0 b1 b2 b3 : Byte) :
    byteOf (wordOfBytes b0 b1 b2 b3) 0 = b0 ∧ byteOf (wordOfBytes b0 b1 b2 b3) 1 = b1 ∧
      byteOf (wordOfBytes b0 b1 b2 b3) 2 = b2 ∧ byteOf (wordOfBytes b0 b1 b2 b3) 3 = b3 := by
  refine ⟨?_, ?_, ?_, ?_⟩ <;>
  · apply BitVec.eq_of_getElem_eq
    intro i hi
    simp only [byteOf, wordOfBytes, BitVec.getElem_extractLsb', BitVec.getLsbD_append]
    interval_cases i <;> simp

theorem wordOfBytes_byteOf (w : Word) : wordOfBytes (byteOf w 0) (byteOf w 1) (byteOf w 2) (byteOf w 3) = w := by
  have h : w.extractLsb' 24 8 ++ w.extractLsb' 16 8 ++ w.extractLsb' 8 8 ++ w.extractLsb' 0 8 = w.extractLsb' 0 32 := by
    rw [BitVec.extractLsb'_append_extractLsb'_eq_extractLsb' (by rfl),
      BitVec.extractLsb'_append_extractLsb'_eq_extractLsb' (by rfl),
      BitVec.extractLsb'_append_extractLsb'_eq_extractLsb' (by rfl)]
  exact h.trans (by simp)

/-- Two words with the same four bytes are the same. -/
theorem word_ext {v w : Word} (h : ∀ j : Fin 4, byteOf v j = byteOf w j) : v = w := by
  rw [← wordOfBytes_byteOf v, ← wordOfBytes_byteOf w, h 0, h 1, h 2, h 3]

theorem byteOf_xor (v w : Word) (j : Fin 4) : byteOf (v ^^^ w) j = byteOf v j ^^^ byteOf w j := by
  apply BitVec.eq_of_getElem_eq
  intro i hi
  simp [byteOf]

theorem byteOf_toNat (w : Word) (j : Fin 4) : (byteOf w j).toNat = w.toNat / 256 ^ j.val % 256 := by
  rw [byteOf, BitVec.extractLsb'_toNat, Nat.shiftRight_eq_div_pow, Nat.pow_mul]

/-- A word written to a group is read back, and the other words stay. -/
theorem blockWord_setBlockWord (b : Block) (n m : WordNo) (w : Word) :
    blockWord (setBlockWord b n w) m = if m = n then w else blockWord b m := by
  fin_cases n <;> fin_cases m <;> rfl

/-- A block is its four words. -/
theorem block_ext {a b : Block} (h : ∀ n : WordNo, blockWord a n = blockWord b n) : a = b := by
  obtain ⟨a0, a1, a2, a3⟩ := a
  obtain ⟨b0, b1, b2, b3⟩ := b
  have h0 := h 0
  have h1 := h 1
  have h2 := h 2
  have h3 := h 3
  simp only [blockWord] at h0 h1 h2 h3
  subst h0 h1 h2 h3
  rfl

theorem blockXor_assoc (a b c : Block) : blockXor (blockXor a b) c = blockXor a (blockXor b c) := by
  simp [blockXor, BitVec.xor_assoc]

@[simp] theorem blockXor_self_right (a b : Block) : blockXor (blockXor a b) b = a := by
  simp [blockXor]

/-- A mask bit is set by a write of its word and by nothing else of that write. -/
theorem setMaskBit_getLsbD (m : BitVec 4) (n k : WordNo) :
    (setMaskBit m n).getLsbD k.val = (m.getLsbD k.val || decide (k = n)) := by
  fin_cases n <;> fin_cases k <;> simp [setMaskBit]

/-! ## The checksum algorithm -/

/-- `Fold1` on numbers: low byte plus high byte, exact. -/
theorem fold1_toNat (s : Half) : (fold1 s).toNat = s.toNat % 256 + s.toNat / 256 := by
  have h255 : s.toNat &&& (255#16).toNat = s.toNat % 256 := Nat.and_two_pow_sub_one_eq_mod s.toNat 8
  have : s.toNat < 65536 := s.isLt
  show ((s.toNat &&& (255#16).toNat) + s.toNat >>> 8) % 65536 = _
  rw [h255, Nat.shiftRight_eq_div_pow]
  omega

theorem addByte_toNat {k : CkUnit} {b : Byte} (h1 : k.s1.toNat + b.toNat < 65536)
    (h2 : k.s2.toNat + (k.s1.toNat + b.toNat) < 65536) (hc : k.cnt.toNat ≤ 30) :
    (addByte k b).s1.toNat = k.s1.toNat + b.toNat ∧
      (addByte k b).s2.toNat = k.s2.toNat + (k.s1.toNat + b.toNat) ∧ (addByte k b).cnt.toNat = k.cnt.toNat + 1 := by
  have hb : (b.setWidth 16).toNat = b.toNat := by
    rw [BitVec.toNat_setWidth]; exact Nat.mod_eq_of_lt (by have := b.isLt; omega)
  have hs : (k.s1 + b.setWidth 16).toNat = k.s1.toNat + b.toNat := by
    rw [BitVec.toNat_add, hb]; exact Nat.mod_eq_of_lt (by omega)
  refine ⟨hs, ?_, ?_⟩
  · simp only [addByte]
    rw [BitVec.toNat_add, hs]; exact Nat.mod_eq_of_lt (by omega)
  · show (k.cnt.toNat + 1) % 32 = _
    omega

/-- `Absorb` either folds, when the byte is the last of its period, or only adds. -/
theorem absorb_cases (k : CkUnit) (b : Byte) :
    ((addByte k b).cnt.toNat = 20 ∧ absorb k b = ⟨fold8 (addByte k b).s1, fold8 (addByte k b).s2, 0⟩) ∨
      ((addByte k b).cnt.toNat ≠ 20 ∧ absorb k b = addByte k b) := by
  by_cases h : (addByte k b).cnt.toNat = 20
  · exact .inl ⟨h, if_pos h⟩
  · exact .inr ⟨h, if_neg h⟩

@[simp] theorem absorbAll_nil (k : CkUnit) : absorbAll k [] = k := rfl

@[simp] theorem absorbAll_cons (k : CkUnit) (b : Byte) (bs : List Byte) :
    absorbAll k (b :: bs) = absorbAll (absorb k b) bs := rfl

theorem absorbAll_append (k : CkUnit) (as bs : List Byte) : absorbAll k (as ++ bs) = absorbAll (absorbAll k as) bs := by
  simp [absorbAll]

/-! ## One block -/

/-- Encrypting: the result is the ciphertext, which is also the next chaining value; the plaintext is `DIN`. -/
theorem CipherUnit.encrypt_block {c : CipherUnit} (h : c.dir = .encrypt) :
    c.blockResult = blockEnc c.key (blockXor c.din c.cv) ∧
      c.nextChain = blockEnc c.key (blockXor c.din c.cv) ∧ c.plaintext = c.din := by
  simp [CipherUnit.blockResult, CipherUnit.nextChain, CipherUnit.plaintext, h]

/-- Decrypting: the result is the plaintext; the next chaining value is `DIN`. -/
theorem CipherUnit.decrypt_block {c : CipherUnit} (h : c.dir = .decrypt) :
    c.blockResult = blockXor (blockDec c.key c.din) c.cv ∧ c.nextChain = c.din ∧
      c.plaintext = blockXor (blockDec c.key c.din) c.cv := by
  simp [CipherUnit.blockResult, CipherUnit.nextChain, CipherUnit.plaintext, h]

theorem tapBlock_off {c : CipherUnit} (h : c.tap = false) (k : CkUnit) : tapBlock k c = k := by simp [tapBlock, h]

theorem tapBlock_on {c : CipherUnit} (h : c.tap = true) (k : CkUnit) :
    tapBlock k c = absorbAll k (blockBytes c.plaintext) := by simp [tapBlock, h]

end Sys2Proof.Machine
end

