-- ==== Sys2Proof/Laws/Exec.lean ====
section
/-! SUPPORT. The step and the dispatch, case by case. -/

namespace Sys2Proof.Machine

/-! ## The step -/

theorem step_idle {s : State} (h : s.port.pending = []) : step s = .next s := by simp [step, h]

theorem step_transaction {s : State} {t : TWord} {rest : List HostEvent}
    (h : s.port.pending = .transaction t :: rest) :
    step s = exec (decodeWord t) (s.withPort { s.port with pending := rest }) := by simp [step, h]

theorem step_reset {s : State} {rest : List HostEvent} (h : s.port.pending = .reset :: rest) :
    step s = .next (resetBlock (s.withPort { s.port with pending := rest })) := by simp [step, h]

/-- A step does nothing, executes the oldest transaction, or takes the platform's `Reset`. -/
theorem step_cases {s : State} {r : Host.Outcome State Fault Refusal} (h : step s = r) :
    (s.port.pending = [] ∧ r = .next s) ∨
      (∃ t rest, s.port.pending = .transaction t :: rest ∧
        r = exec (decodeWord t) (s.withPort { s.port with pending := rest })) ∨
      (∃ rest, s.port.pending = .reset :: rest ∧ r = .next (resetBlock (s.withPort { s.port with pending := rest }))) := by
  subst h
  match hp : s.port.pending with
  | [] => exact .inl ⟨rfl, step_idle hp⟩
  | .transaction t :: rest => exact .inr (.inl ⟨t, rest, rfl, step_transaction hp⟩)
  | .reset :: rest => exact .inr (.inr ⟨rest, rfl, step_reset hp⟩)

/-! ## The dispatch -/

@[simp] theorem exec_rdId (s : State) :
    exec (.rdId) s = execRdId s := rfl
@[simp] theorem exec_rdStatus (s : State) :
    exec (.rdStatus) s = execRdStatus s := rfl
@[simp] theorem exec_rdCtrl (s : State) :
    exec (.rdCtrl) s = execRdCtrl s := rfl
@[simp] theorem exec_rdErr (s : State) :
    exec (.rdErr) s = execRdErr s := rfl
@[simp] theorem exec_rdLen (s : State) :
    exec (.rdLen) s = execRdLen s := rfl
@[simp] theorem exec_rdRem (s : State) :
    exec (.rdRem) s = execRdRem s := rfl
@[simp] theorem exec_rdCksum (s : State) :
    exec (.rdCksum) s = execRdCksum s := rfl
@[simp] theorem exec_rdCkAcc (s : State) :
    exec (.rdCkAcc) s = execRdCkAcc s := rfl
@[simp] theorem exec_rdIv (n : WordNo) (s : State) :
    exec (.rdIv n) s = execRdIv n s := rfl
@[simp] theorem exec_rdDin (n : WordNo) (s : State) :
    exec (.rdDin n) s = execRdDin n s := rfl
@[simp] theorem exec_rdDout (n : WordNo) (s : State) :
    exec (.rdDout n) s = execRdDout n s := rfl
@[simp] theorem exec_rdCv (n : WordNo) (s : State) :
    exec (.rdCv n) s = execRdCv n s := rfl
@[simp] theorem exec_wrCtrl (dir : Direction) (tap : Bool) (s : State) :
    exec (.wrCtrl dir tap) s = execWrCtrl dir tap s := rfl
@[simp] theorem exec_wrLen (len : Half) (s : State) :
    exec (.wrLen len) s = execWrLen len s := rfl
@[simp] theorem exec_wrCkData8 (byte : Byte) (s : State) :
    exec (.wrCkData8 byte) s = execWrCkData8 byte s := rfl
@[simp] theorem exec_wrCkData32 (word : Word) (s : State) :
    exec (.wrCkData32 word) s = execWrCkData32 word s := rfl
@[simp] theorem exec_wrCkVerify (expect : Half) (s : State) :
    exec (.wrCkVerify expect) s = execWrCkVerify expect s := rfl
@[simp] theorem exec_wrKey (n : WordNo) (word : Word) (s : State) :
    exec (.wrKey n word) s = execWrKey n word s := rfl
@[simp] theorem exec_wrIv (n : WordNo) (word : Word) (s : State) :
    exec (.wrIv n word) s = execWrIv n word s := rfl
@[simp] theorem exec_wrDin (n : WordNo) (word : Word) (s : State) :
    exec (.wrDin n word) s = execWrDin n word s := rfl
@[simp] theorem exec_nop (s : State) :
    exec (.nop) s = execNop s := rfl
@[simp] theorem exec_ckInit (s : State) :
    exec (.ckInit) s = execCkInit s := rfl
@[simp] theorem exec_cStart (s : State) :
    exec (.cStart) s = execCStart s := rfl
@[simp] theorem exec_cBlock (s : State) :
    exec (.cBlock) s = execCBlock s := rfl
@[simp] theorem exec_cFinish (s : State) :
    exec (.cFinish) s = execCFinish s := rfl
@[simp] theorem exec_cAbort (s : State) :
    exec (.cAbort) s = execCAbort s := rfl
@[simp] theorem exec_keyClear (s : State) :
    exec (.keyClear) s = execKeyClear s := rfl
@[simp] theorem exec_eack (s : State) :
    exec (.eack) s = execEack s := rfl
@[simp] theorem exec_srst (s : State) :
    exec (.srst) s = execSrst s := rfl
@[simp] theorem exec_rdZero (idx : Idx) (s : State) :
    exec (.rdZero idx) s = execRdZero idx s := rfl
@[simp] theorem exec_wrIllegal (idx : Idx) (data : Word) (s : State) :
    exec (.wrIllegal idx data) s = execWrIllegal idx data s := rfl

end Sys2Proof.Machine
end

