-- ==== Sys2Proof/Laws/PerInstr.lean ====
section
/-! SUPPORT. Statements about every operation as syntax, one lemma per constructor. -/

namespace Sys2Proof.Laws

/-- The write bit, register index and data of an operation's transaction word (30_encoding.md R101 to R106). -/
def transactionOf : Instr → Bool × Idx × Word
  | .rdId => (false, Reg.id, 0)
  | .rdStatus => (false, Reg.status, 0)
  | .rdCtrl => (false, Reg.ctrl, 0)
  | .rdErr => (false, Reg.err, 0)
  | .rdLen => (false, Reg.len, 0)
  | .rdRem => (false, Reg.rem, 0)
  | .rdCksum => (false, Reg.cksum, 0)
  | .rdCkAcc => (false, Reg.ckAcc, 0)
  | .rdIv n => (false, groupIdx Reg.iv0 n, 0)
  | .rdDin n => (false, groupIdx Reg.din0 n, 0)
  | .rdDout n => (false, groupIdx Reg.dout0 n, 0)
  | .rdCv n => (false, groupIdx Reg.cv0 n, 0)
  | .wrCtrl dir tap => (true, Reg.ctrl, ctrlData dir tap)
  | .wrLen len => (true, Reg.len, len.setWidth 32)
  | .wrCkData8 byte => (true, Reg.ckData8, byte.setWidth 32)
  | .wrCkData32 word => (true, Reg.ckData32, word)
  | .wrCkVerify expect => (true, Reg.ckVerify, expect.setWidth 32)
  | .wrKey n word => (true, groupIdx Reg.key0 n, word)
  | .wrIv n word => (true, groupIdx Reg.iv0 n, word)
  | .wrDin n word => (true, groupIdx Reg.din0 n, word)
  | .nop => (true, Reg.cmd, commandData Opcode.nop)
  | .ckInit => (true, Reg.cmd, commandData Opcode.ckInit)
  | .cStart => (true, Reg.cmd, commandData Opcode.cStart)
  | .cBlock => (true, Reg.cmd, commandData Opcode.cBlock)
  | .cFinish => (true, Reg.cmd, commandData Opcode.cFinish)
  | .cAbort => (true, Reg.cmd, commandData Opcode.cAbort)
  | .keyClear => (true, Reg.cmd, commandData Opcode.keyClear)
  | .eack => (true, Reg.cmd, commandData Opcode.eack)
  | .srst => (true, Reg.cmd, commandData Opcode.srst)
  | .rdZero idx => (false, idx, 0)
  | .wrIllegal idx data => (true, idx, data)

/-- The encoder puts the operation's write bit, index and data into the three fields of the word, and nothing else. -/
def EncodeFields.Statement (i : Instr) : Prop :=
  weOf (encodeWord i) = (transactionOf i).1 ∧ idxOf (encodeWord i) = (transactionOf i).2.1 ∧
    dataOf (encodeWord i) = (transactionOf i).2.2

/-- Every operation is encoded as the packing of its transaction. -/
theorem encodeWord_eq (i : Instr) :
    encodeWord i = packWord (transactionOf i).1 (transactionOf i).2.1 (transactionOf i).2.2 := by
  cases i <;> rfl

theorem encodeFields (i : Instr) : EncodeFields.Statement i := by
  simp only [EncodeFields.Statement, encodeWord_eq, weOf_packWord, idxOf_packWord, dataOf_packWord, and_self]

theorem EncodeFields.rdId : EncodeFields.Statement (.rdId) := encodeFields _
theorem EncodeFields.rdStatus : EncodeFields.Statement (.rdStatus) := encodeFields _
theorem EncodeFields.rdCtrl : EncodeFields.Statement (.rdCtrl) := encodeFields _
theorem EncodeFields.rdErr : EncodeFields.Statement (.rdErr) := encodeFields _
theorem EncodeFields.rdLen : EncodeFields.Statement (.rdLen) := encodeFields _
theorem EncodeFields.rdRem : EncodeFields.Statement (.rdRem) := encodeFields _
theorem EncodeFields.rdCksum : EncodeFields.Statement (.rdCksum) := encodeFields _
theorem EncodeFields.rdCkAcc : EncodeFields.Statement (.rdCkAcc) := encodeFields _
theorem EncodeFields.rdIv (n : WordNo) : EncodeFields.Statement (.rdIv n) := encodeFields _
theorem EncodeFields.rdDin (n : WordNo) : EncodeFields.Statement (.rdDin n) := encodeFields _
theorem EncodeFields.rdDout (n : WordNo) : EncodeFields.Statement (.rdDout n) := encodeFields _
theorem EncodeFields.rdCv (n : WordNo) : EncodeFields.Statement (.rdCv n) := encodeFields _
theorem EncodeFields.wrCtrl (dir : Direction) (tap : Bool) : EncodeFields.Statement (.wrCtrl dir tap) := encodeFields _
theorem EncodeFields.wrLen (len : Half) : EncodeFields.Statement (.wrLen len) := encodeFields _
theorem EncodeFields.wrCkData8 (byte : Byte) : EncodeFields.Statement (.wrCkData8 byte) := encodeFields _
theorem EncodeFields.wrCkData32 (word : Word) : EncodeFields.Statement (.wrCkData32 word) := encodeFields _
theorem EncodeFields.wrCkVerify (expect : Half) : EncodeFields.Statement (.wrCkVerify expect) := encodeFields _
theorem EncodeFields.wrKey (n : WordNo) (word : Word) : EncodeFields.Statement (.wrKey n word) := encodeFields _
theorem EncodeFields.wrIv (n : WordNo) (word : Word) : EncodeFields.Statement (.wrIv n word) := encodeFields _
theorem EncodeFields.wrDin (n : WordNo) (word : Word) : EncodeFields.Statement (.wrDin n word) := encodeFields _
theorem EncodeFields.nop : EncodeFields.Statement (.nop) := encodeFields _
theorem EncodeFields.ckInit : EncodeFields.Statement (.ckInit) := encodeFields _
theorem EncodeFields.cStart : EncodeFields.Statement (.cStart) := encodeFields _
theorem EncodeFields.cBlock : EncodeFields.Statement (.cBlock) := encodeFields _
theorem EncodeFields.cFinish : EncodeFields.Statement (.cFinish) := encodeFields _
theorem EncodeFields.cAbort : EncodeFields.Statement (.cAbort) := encodeFields _
theorem EncodeFields.keyClear : EncodeFields.Statement (.keyClear) := encodeFields _
theorem EncodeFields.eack : EncodeFields.Statement (.eack) := encodeFields _
theorem EncodeFields.srst : EncodeFields.Statement (.srst) := encodeFields _
theorem EncodeFields.rdZero (idx : Idx) : EncodeFields.Statement (.rdZero idx) := encodeFields _
theorem EncodeFields.wrIllegal (idx : Idx) (data : Word) : EncodeFields.Statement (.wrIllegal idx data) := encodeFields _

end Sys2Proof.Laws
end

