-- ==== Sys2Proof/Tests/Slice0.lean ====
section
/-! SUPPORT. Tests. Expected values are those of 95_test_vectors.md (the entry is named) or are written out from the rules.
First the checks of WellFormed, then the decoder, then one step per operation, then the algorithms, then for every
obligation with hypotheses a concrete state and operands that meet them, `witness_<obligation>`. -/

namespace Sys2Proof.Tests

open Sys2Proof.Machine

/-! ## WellFormed refuses what the encoding cannot express -/

theorem test_wf_zero_at_readable_index : Instr.wellFormed (.rdZero 0x00) = false := by decide
theorem test_wf_zero_at_readable_group : Instr.wellFormed (.rdZero 0x27) = false := by decide
theorem test_wf_zero_at_reserved_index : Instr.wellFormed (.rdZero 0x28) = true := by decide
theorem test_wf_illegal_of_legal_length : Instr.wellFormed (.wrIllegal 0x05 0x40) = false := by decide
theorem test_wf_illegal_of_legal_control : Instr.wellFormed (.wrIllegal 0x02 0x9) = false := by decide
theorem test_wf_illegal_of_legal_byte : Instr.wellFormed (.wrIllegal 0x08 0xFF) = false := by decide
theorem test_wf_illegal_of_command : Instr.wellFormed (.wrIllegal 0x03 0x7F) = false := by decide
theorem test_wf_illegal_of_key : Instr.wellFormed (.wrIllegal 0x13 0) = false := by decide

/-- One word of each of the six cases of 30_encoding.md R107 (V3.2). -/
theorem test_wf_six_illegal_cases :
    Instr.wellFormed (.wrIllegal 0x27 1) = true ∧ Instr.wellFormed (.wrIllegal 0x14 0x12345678) = true ∧
    Instr.wellFormed (.wrIllegal 0x02 0x2) = true ∧ Instr.wellFormed (.wrIllegal 0x0B 0x10000) = true ∧
    Instr.wellFormed (.wrIllegal 0x08 0x100) = true ∧ Instr.wellFormed (.wrIllegal 0x03 0x111) = true := by decide

/-! ## Decoding: words written out from 30_encoding.md R104 to R106 (most are V4.1) -/

theorem test_decode_rdId : decode [0x00, 0xDE, 0xAD, 0xBE, 0xEF] = .ok (.rdId, []) := by decide
theorem test_decode_rdStatus : decodeWord 0x0100000000 = .rdStatus := by decide
theorem test_decode_rdCtrl : decodeWord 0x0200000000 = .rdCtrl := by decide
theorem test_decode_rdErr : decodeWord 0x0400000000 = .rdErr := by decide
theorem test_decode_rdLen : decodeWord 0x0500000000 = .rdLen := by decide
theorem test_decode_rdRem : decodeWord 0x0600000000 = .rdRem := by decide
theorem test_decode_rdCksum : decodeWord 0x0A00000000 = .rdCksum := by decide
theorem test_decode_rdCkAcc : decodeWord 0x0C00000000 = .rdCkAcc := by decide
theorem test_decode_rdIv : decodeWord 0x1900000000 = .rdIv 1 := by decide
theorem test_decode_rdDin : decodeWord 0x1E00000000 = .rdDin 2 := by decide
theorem test_decode_rdDout : decodeWord 0x2300000000 = .rdDout 3 := by decide
theorem test_decode_rdCv : decodeWord 0x2600000000 = .rdCv 2 := by decide
theorem test_decode_rdZero : decodeWord 0x1000000000 = .rdZero 0x10 := by decide
theorem test_decode_rdZero_last : decodeWord 0x7F00000000 = .rdZero 0x7F := by decide
theorem test_decode_wrCtrl : decode [0x82, 0x00, 0x00, 0x00, 0x09] = .ok (.wrCtrl .decrypt true, []) := by decide
theorem test_decode_wrCtrl_tap : decodeWord 0x8200000008 = .wrCtrl .encrypt true := by decide
theorem test_decode_wrLen : decodeWord 0x8500000040 = .wrLen 64 := by decide
theorem test_decode_wrCkData8 : decodeWord 0x88000000AB = .wrCkData8 0xAB := by decide
theorem test_decode_wrCkData32 : decodeWord 0x8944332211 = .wrCkData32 0x44332211 := by decide
theorem test_decode_wrCkVerify : decodeWord 0x8B00000AD2 = .wrCkVerify 0x0AD2 := by decide
theorem test_decode_wrKey : decodeWord 0x928815F7AB = .wrKey 2 0x8815F7AB := by decide
theorem test_decode_wrIv : decodeWord 0x9B0F0E0D0C = .wrIv 3 0x0F0E0D0C := by decide
theorem test_decode_wrDin : decodeWord 0x9CE2BEC16B = .wrDin 0 0xE2BEC16B := by decide
theorem test_decode_nop : decode [0x83, 0x00, 0x00, 0x00, 0x00] = .ok (.nop, []) := by decide
theorem test_decode_ckInit : decodeWord 0x8300000001 = .ckInit := by decide
theorem test_decode_cStart : decodeWord 0x8300000010 = .cStart := by decide
theorem test_decode_cBlock : decodeWord 0x8300000011 = .cBlock := by decide
theorem test_decode_cFinish : decodeWord 0x8300000012 = .cFinish := by decide
theorem test_decode_cAbort : decodeWord 0x8300000013 = .cAbort := by decide
theorem test_decode_keyClear : decodeWord 0x8300000020 = .keyClear := by decide
theorem test_decode_eack : decodeWord 0x830000007E = .eack := by decide
theorem test_decode_srst : decodeWord 0x830000007F = .srst := by decide
theorem test_decode_wrIllegal_opcode : decodeWord 0x8300000111 = .wrIllegal 0x03 0x111 := by decide
theorem test_decode_wrIllegal_index : decodeWord 0xFFFFFFFFFF = .wrIllegal 0x7F 0xFFFFFFFF := by decide

/-- The decoder rejects by name a byte string that is no whole word, and leaves what follows a word. -/
theorem test_decode_truncated : decode [0x83, 0x00, 0x00, 0x00] = .error (.truncated 4) := by decide
theorem test_decode_leaves_rest : decode [0x83, 0x00, 0x00, 0x00, 0x11, 0x2A] = .ok (.cBlock, [0x2A]) := by decide

/-- 30_encoding.md R101, R106: `83 00000011` as the encoder stores it. -/
theorem test_encode_cBlock : encode .cBlock = [0x83, 0x00, 0x00, 0x00, 0x11] := by decide
theorem test_encode_wrKey : encode (.wrKey 2 0x8815F7AB) = [0x92, 0x88, 0x15, 0xF7, 0xAB] := by decide

/-- A table row's number is the 40-bit word of 30_encoding.md R101. -/
theorem test_decodeTableWord : decodeTableWord 40 0x8300000011 = some .cBlock := by decide
theorem test_decodeTableWord_too_wide : decodeTableWord 48 0x018300000011 = none := by decide

/-! ## One step per operation -/

/-- A field of the state a step answers. -/
def after {α : Type} (r : Host.Outcome State Fault Refusal) (f : State → α) : Option α :=
  match r with
  | .next s => some (f s)
  | _ => none

/-- A field after one step that takes the transaction `t`. -/
def one {α : Type} (s : State) (t : TWord) (f : State → α) : Option α := after (step (s.issue [t])) f

/-- What a host reads from `idx`. -/
def peek (idx : Idx) (s : State) : Word := memRead idx s

/-- The key and the IV of 95_test_vectors.md V2.1 are loaded, and `LEN = len`. -/
def loaded (len : Half) : State :=
  { State.reset with
    cipher :=
      { CipherUnit.cleared with
        key := ⟨0x16157E2B, 0xA6D2AE28, 0x8815F7AB, 0x3C4FCF09⟩, kmask := 0b1111,
        iv := ⟨0x03020100, 0x07060504, 0x0B0A0908, 0x0F0E0D0C⟩, imask := 0b1111, len := len } }

/-- `loaded` after `C_START`, with a block in `DIN`. -/
def started (len : Half) (dir : Direction) (tap : Bool) (din : Block) : State :=
  { loaded len with
    cipher :=
      { (loaded len).cipher with
        imask := 0, cv := (loaded len).cipher.iv, rem := len, cst := .run, dir := dir, tap := tap, din := din } }

/-- Block 1 of V2.1: the plaintext and the ciphertext. -/
def plain1 : Block := ⟨0xE2BEC16B, 0x969F402E, 0x117E3DE9, 0x2A179373⟩
def cipher1 : Block := ⟨0xACAB4976, 0x46B21981, 0x9B8EE9CE, 0x7D19E912⟩

/-- A message of 64 bytes is open, no tap, encrypting. -/
def running : State := started 64 .encrypt false plain1

/-- The reset state holding the fault of V3.4. -/
def held : State := { State.reset with err := ⟨1, 0, 0⟩ }

/-- The reset state with accumulators. -/
def summing (s1 s2 : Half) (cnt : BitVec 5) : State := { State.reset with ck := ⟨s1, s2, cnt⟩ }

theorem test_rdId : one State.reset 0x00DEADBEEF (·.port.rdata) = some [0x464C3136] := by decide
/-- V3.7: running and faulted; 19 bytes absorbed. -/
theorem test_rdStatus : one { running with err := ⟨3, 3, 0x11⟩ } 0x0100000000 (·.port.rdata) = some [0x13] := by decide
theorem test_rdStatus_cnt : one (summing 0x13EC 0xD12E 19) 0x0100000000 (·.port.rdata) = some [0x1300] := by decide
/-- V3.3. -/
theorem test_rdCtrl : one (started 16 .decrypt true plain1) 0x0200000000 (·.port.rdata) = some [9] := by decide
/-- V3.6. -/
theorem test_rdErr : one { held with err := ⟨5, 0x03, 0x11⟩ } 0x0400000000 (·.port.rdata) = some [0x00110305] := by decide
theorem test_rdLen : one (loaded 0xFFFF) 0x0500000000 (·.port.rdata) = some [0x0000FFFF] := by decide
theorem test_rdRem : one running 0x0600000000 (·.port.rdata) = some [0x40] := by decide
/-- V1.2: `S2 = 0x01FF` needs the double fold. -/
theorem test_rdCksum : one (summing 0x0100 0x01FF 1) 0x0A00000000 (·.port.rdata) = some [0x0101] := by decide
/-- V1.5. -/
theorem test_rdCkAcc : one (summing 0x0102 0x0301 2) 0x0C00000000 (·.port.rdata) = some [0x03010102] := by decide
theorem test_rdIv : one running 0x1900000000 (·.port.rdata) = some [0x07060504] := by decide
theorem test_rdDin : one running 0x1E00000000 (·.port.rdata) = some [0x117E3DE9] := by decide
theorem test_rdDout :
    one { running with cipher := { running.cipher with dout := cipher1 } } 0x2300000000 (·.port.rdata) =
      some [0x7D19E912] := by decide
theorem test_rdCv : one running 0x2600000000 (·.port.rdata) = some [0x0B0A0908] := by decide
/-- V2.14: the key is not readable. -/
theorem test_rdZero_key : one running 0x1000000000 (·.port.rdata) = some [0] := by decide
/-- V3.4: reads work while faulted. -/
theorem test_rd_faulted : one held 0x0400000000 (·.port.rdata) = some [1] := by decide

theorem test_wrCtrl : one State.reset 0x8200000009 (peek 0x02) = some 9 := by decide
/-- V2.11f, V2.11g: `ILLEGAL` before `SEQUENCE`. -/
theorem test_wrCtrl_run :
    one running 0x8200000001 (peek 0x04) = some 0x205 ∧ one running 0x8200000002 (peek 0x04) = some 0x201 := by decide
theorem test_wrLen : one State.reset 0x850000FFFF (peek 0x05) = some 0xFFFF := by decide
/-- V2.11h. -/
theorem test_wrLen_run : one running 0x8500000020 (peek 0x04) = some 0x505 := by decide
/-- V1.T, byte 19: the forced fold. -/
theorem test_wrCkData8 : one (summing 0x01AA 0x1860 19) 0x8800000013 (·.ck) = some ⟨0x00BE, 0x0037, 0⟩ := by decide
/-- V1.25. -/
theorem test_wrCkData8_illegal : one State.reset 0x8800000100 (peek 0x04) = some 0x801 := by decide
/-- V1.23: the fold falls after the second byte of the word. -/
theorem test_wrCkData32 : one (summing 0x01AA 0x1761 18) 0x8944332211 (·.ck) = some ⟨0x0155, 0x027A, 2⟩ := by decide
/-- V1.24 a, b. -/
theorem test_wrCkVerify :
    one (summing 0x0100 0x01FF 1) 0x8B00000101 (peek 0x04) = some 0 ∧
    one (summing 0x0100 0x01FF 1) 0x8B00000001 (peek 0x04) = some 0xB04 := by decide
theorem test_wrKey : one State.reset 0x9212345678 (fun s => (s.cipher.key, s.cipher.kmask)) =
    some (⟨0, 0, 0x12345678, 0⟩, 0b0100) := by decide
/-- V2.11d. -/
theorem test_wrKey_run : one running 0x9000000001 (peek 0x04) = some 0x1005 := by decide
theorem test_wrIv : one State.reset 0x990F0E0D0C (fun s => (s.cipher.iv, s.cipher.imask)) =
    some (⟨0, 0x0F0E0D0C, 0, 0⟩, 0b0010) := by decide
/-- V2.11e. -/
theorem test_wrIv_run : one running 0x9B00000001 (peek 0x04) = some 0x1B05 := by decide
/-- V2.11j: legal in `RUN`. -/
theorem test_wrDin_run : one running 0x9FFFFFFFFF (fun s => (s.cipher.din.x3, s.err.ecode)) = some (0xFFFFFFFF, 0) := by decide

theorem test_nop : one running 0x8300000000 (·) = some running := by decide
/-- V1.26. -/
theorem test_ckInit : one (summing 0x0102 0x0301 2) 0x8300000001 (·.ck) = some ⟨0x00FF, 0x00FF, 0⟩ := by decide
/-- V2.9c: the largest legal length; the IV is consumed and becomes the chaining value. -/
theorem test_cStart : one (loaded 0xFFF0) 0x8300000010 (fun s => (peek 0x01 s, peek 0x06 s, peek 0x25 s)) =
    some (0x3, 0xFFF0, 0x07060504) := by decide
/-- V2.9a, V2.9d, V2.11c: the three faults of `C_START` and their order. -/
theorem test_cStart_faults :
    one (loaded 24) 0x8300000010 (peek 0x04) = some 0x00100303 ∧
    one State.reset 0x8300000010 (peek 0x04) = some 0x00100302 ∧
    one running 0x8300000010 (peek 0x04) = some 0x00100305 := by decide
/-- V2.1 block 1. -/
theorem test_cBlock_encrypt :
    one running 0x8300000011 (fun s => (s.cipher.dout, s.cipher.cv, s.cipher.rem, s.ck)) =
      some (cipher1, cipher1, 48, ⟨0x00FF, 0x00FF, 0⟩) := by decide +kernel
/-- V2.2 block 1: the tap takes the plaintext. -/
theorem test_cBlock_decrypt_tap :
    one (started 64 .decrypt true cipher1) 0x8300000011 (fun s => (s.cipher.dout, s.cipher.cv, peek 0x0A s, s.ck.cnt)) =
      some (plain1, cipher1, 0xA272, 16) := by decide +kernel
/-- V2.1 closed: `STATUS` after `C_FINISH`. -/
theorem test_cFinish : one (started 0 .encrypt false plain1) 0x8300000012 (peek 0x01) = some 0xA := by decide
/-- V2.10a, V2.11b. -/
theorem test_cFinish_faults :
    one running 0x8300000012 (peek 0x04) = some 0x00120303 ∧
    one (loaded 16) 0x8300000012 (peek 0x04) = some 0x00120305 := by decide
/-- V2.13. -/
theorem test_cAbort : one running 0x8300000013 (fun s => (peek 0x01 s, peek 0x06 s)) = some (2, 0x40) := by decide
/-- V2.14. -/
theorem test_keyClear : one (loaded 16) 0x8300000020 (fun s => (peek 0x01 s, s.cipher.key)) = some (4, ⟨0, 0, 0, 0⟩) := by decide
/-- V2.11i. -/
theorem test_keyClear_run : one running 0x8300000020 (peek 0x04) = some 0x00200305 := by decide
theorem test_eack : one held 0x830000007E (peek 0x04) = some 0 := by decide
/-- V3.5: from `RUN` with a fault held. -/
theorem test_srst : one { running with err := ⟨5, 3, 0x10⟩ } 0x830000007F (·) = some State.reset := by decide
/-- V3.2: two illegal writes. -/
theorem test_wrIllegal :
    one State.reset 0xA700000001 (peek 0x04) = some 0x2701 ∧
    one State.reset 0x8300000111 (peek 0x04) = some 0x00110301 := by decide
/-- V3.4: an illegal write in the faulted state is ignored. -/
theorem test_wrIllegal_faulted : one held 0x8300000002 (·) = some held := by decide

/-- The platform's `Reset` (70_reset_and_hazards.md R330). -/
theorem test_reset_event :
    after (step { running with port := ⟨[.reset], []⟩ }) (·) = some State.reset := by decide
theorem test_withFetchWord :
    after (step (State.reset.withFetchWord 40 0x8500000040)) (fun s => (s.cipher.len, s.port.pending)) = some (64, []) := by decide

/-! ## The algorithms -/

/-- The table of `Fold8` in 95_test_vectors.md section 2.1. -/
theorem test_fold8 :
    [0x0000, 0x0001, 0x00FF, 0x0100, 0x01FE, 0x01FF, 0x02FF, 0xFEFF, 0xFF00, 0xFFFF].map fold8 =
      [0x00, 0x01, 0xFF, 0x01, 0xFF, 0x01, 0x02, 0xFE, 0xFF, 0xFF] := by decide
/-- V1.6, V1.17, V1.20, V1.21. -/
theorem test_checksum :
    checksum [0x61, 0x62, 0x63, 0x64, 0x65] = 0xC8F0 ∧
    checksum ((List.range 21).map fun i => BitVec.ofNat 8 (i + 1)) = 0xF1E7 ∧
    checksum [0x01, 0x02, 0x00, 0x04] = 0x0E07 ∧ checksum [0x01, 0x02, 0xFF, 0x04] = 0x0E07 := by decide +kernel
/-- V1.9: 19 bytes `FF`, the largest values an accumulator holds between transactions. -/
theorem test_checksum_bound : absorbAll CkUnit.seeded (List.replicate 19 0xFF) = ⟨0x13EC, 0xD12E, 19⟩ := by decide
/-- V2.6. -/
theorem test_cbc : cbcEncrypt ⟨0x16157E2B, 0xA6D2AE28, 0x8815F7AB, 0x3C4FCF09⟩
    ⟨0x13121110, 0x17161514, 0x1B1A1918, 0x1F1E1D1C⟩ [plain1] =
      [⟨0x0450C462, 0x9A6392E2, 0x5FCB1C27, 0xCED04329⟩] := by decide +kernel
/-- P2, transactions 10 to 13. -/
theorem test_envEncode : ((envEncode Block.zero ⟨0xA3A2A1A0, 0xA7A6A5A4, 0xABAAA9A8, 0xAFAEADAC⟩ [plain1, plain1]).drop 9).take 4 =
    [0x8200000008, 0x8500000020, 0x8300000010, 0x0400000000] := by decide

/-! ## Witnesses: concrete states and operands that meet the hypotheses of each obligation, clause by clause -/

/-- What is pending when the host issues `t`. -/
def pendingOf (s : State) (t : TWord) : List HostEvent := (s.issue [t]).port.pending

/-- A response packet without ciphertext, and one with one block (43_envelope_sequences.md R261). -/
def emptyPacket : List Byte := responsePacket 1 0 Block.zero [] 0xFFFF
def blockPacket : List Byte := responsePacket 1 0 plain1 [cipher1] 0xBACF

/-- Operands at the ends of their ranges; the fallback operations at the ends of their index ranges. -/
theorem witness_DecodeUndoesEncode :
    Instr.wellFormed (.wrKey 3 0xFFFFFFFF) = true ∧ Instr.wellFormed (.wrCtrl .decrypt true) = true ∧
    Instr.wellFormed (.rdZero 0x7F) = true ∧ Instr.wellFormed (.rdZero 0x03) = true ∧
    Instr.wellFormed (.wrIllegal 0x08 0x100) = true ∧ Instr.wellFormed (.wrIllegal 0x7F 0) = true := by decide

theorem witness_EncodeUndoesDecode :
    BitVec.getLsbD (0xFFFFFFFFFF#40) 39 = true ∧ BitVec.getLsbD (0x7FFFFFFFFF#40) 39 = false := by decide

/-- A word that matches a row with its operand bits set, and a write and a read that match none. -/
theorem witness_DecodeFollowsOpcodeTable :
    (∃ r ∈ opRows, 0x93FFFFFFFF#40 &&& r.mask = r.code) ∧
    (∀ r ∈ opRows, 0xFFFFFFFFFF#40 &&& r.mask ≠ r.code) ∧ (∀ r ∈ opRows, 0x7F00000000#40 &&& r.mask ≠ r.code) := by decide

/-- One write of each of the six cases at its boundary, and the two fault states. -/
theorem witness_IllegalWritesFault :
    decodeWord (writeWord 0x27 0) = .wrIllegal 0x27 0 ∧ decodeWord (writeWord 0x28 0) = .wrIllegal 0x28 0 ∧
    decodeWord (writeWord 0x02 0xA) = .wrIllegal 0x02 0xA ∧ decodeWord (writeWord 0x0B 0x10000) = .wrIllegal 0x0B 0x10000 ∧
    decodeWord (writeWord 0x08 0x100) = .wrIllegal 0x08 0x100 ∧ decodeWord (writeWord 0x03 0x80) = .wrIllegal 0x03 0x80 ∧
    State.reset.err.ecode = 0 ∧ held.err.ecode ≠ 0 := by decide

/-- Whether `t` is a read of an index that names no readable register. -/
def readsNothing (t : TWord) : Bool :=
  !t.getLsbD 39 && decide ((idxOf t).toNat ∈ [0x03, 0x07, 0x08, 0x09, 0x0B] ∨
    (0x0D ≤ (idxOf t).toNat ∧ (idxOf t).toNat ≤ 0x17) ∨ 0x28 ≤ (idxOf t).toNat)

theorem witness_UnreadableIndicesReadZero :
    [0x0300000000#40, 0x0D00000000#40, 0x17FFFFFFFF#40, 0x2800000001#40, 0x7F00000000#40].all readsNothing = true := by decide

theorem witness_StepRunsTheOldestTransaction :
    (running.issue [0x8300000011]).port.pending = .transaction 0x8300000011 :: [] ∧
    decode (bytesOfWord 0x8300000011) = .ok (.cBlock, []) ∧ Instr.wellFormed .cBlock = true := by decide

theorem witness_IdleBlockChangesNothing : running.port.pending = [] := by decide

theorem witness_ResetGivesEveryRegisterItsValue :
    ({ running with port := ⟨[.reset], [7]⟩ } : State).port.pending = .reset :: [] := by decide

theorem witness_ResetReadValues :
    BitVec.getLsbD (0x0A00000000#40) 39 = false ∧ BitVec.getLsbD (0x7FFFFFFFFF#40) 39 = false := by decide

theorem witness_ReadsReturnTheRegisterMap :
    pendingOf held 0x2700000000 = .transaction 0x2700000000 :: [] ∧ BitVec.getLsbD (0x2700000000#40) 39 = false := by decide

/-- The accumulators at their bounds, before and at the twentieth byte. -/
theorem witness_AbsorbIsTheExactByteStep :
    CkUnit.Good ⟨0x13EC, 0xD12E, 19⟩ ∧ CkUnit.Good ⟨0x00FF, 0x00FF, 0⟩ ∧ (19#5).toNat = 19 ∧ (0#5).toNat ≠ 19 := by
  simp only [CkUnit.Good, s1Bound, s2Bound]
  decide

/-- The two hypotheses of every statement about one operation: no fault held, and one held. -/
theorem witness_CkInitSeedsTheAccumulators : (summing 0x0102 0x0301 2).err.ecode = 0 ∧ held.err.ecode ≠ 0 := by decide

theorem witness_CkDataByteAbsorbsOneByte : (summing 0x01AA 0x1860 19).err.ecode = 0 ∧ held.err.ecode ≠ 0 := by decide

/-- `CKSUM = 0x0101` (V1.24): a match, and a mismatch in the high byte only. -/
theorem witness_CkVerifyFaultsOnlyOnMismatch :
    (summing 0x0100 0x01FF 1).err.ecode = 0 ∧ held.err.ecode ≠ 0 ∧
    (0x0101#16).toNat = 2 ^ 8 * (fold8 (summing 0x0100 0x01FF 1).ck.s2).toNat + (fold8 (summing 0x0100 0x01FF 1).ck.s1).toNat ∧
    (0x0001#16).toNat ≠ 2 ^ 8 * (fold8 (summing 0x0100 0x01FF 1).ck.s2).toNat + (fold8 (summing 0x0100 0x01FF 1).ck.s1).toNat := by decide

theorem witness_FedBytesReadBackAsTheirChecksum : running.err.ecode = 0 ∧ running.cipher.cst = .run := by decide

theorem witness_CkBytesAbsorbsItsBytes : (summing 0x0102 0x0301 2).err.ecode = 0 := by decide

theorem witness_KeyWordWrite :
    ((loaded 16).err.ecode = 0 ∧ (loaded 16).cipher.cst = .idle) ∧
    (running.err.ecode = 0 ∧ running.cipher.cst = .run) ∧ held.err.ecode ≠ 0 := by decide

theorem witness_IvWordWrite :
    (State.reset.err.ecode = 0 ∧ State.reset.cipher.cst = .idle) ∧
    (running.err.ecode = 0 ∧ running.cipher.cst = .run) ∧ held.err.ecode ≠ 0 := by decide

theorem witness_DinWordWrite : running.err.ecode = 0 ∧ held.err.ecode ≠ 0 := by decide

theorem witness_KeyClearDestroysTheKey :
    ((loaded 16).err.ecode = 0 ∧ (loaded 16).cipher.cst = .idle) ∧
    (running.err.ecode = 0 ∧ running.cipher.cst = .run) ∧ held.err.ecode ≠ 0 := by decide

theorem witness_CtrlWriteSetsDirectionAndTap :
    (State.reset.err.ecode = 0 ∧ State.reset.cipher.cst = .idle) ∧
    (running.err.ecode = 0 ∧ running.cipher.cst = .run) ∧ held.err.ecode ≠ 0 := by decide

theorem witness_LenWriteStoresTheLength :
    (State.reset.err.ecode = 0 ∧ State.reset.cipher.cst = .idle) ∧
    (running.err.ecode = 0 ∧ running.cipher.cst = .run) ∧ held.err.ecode ≠ 0 := by decide

/-- The five clauses: the largest legal length, `RUN`, no key and one IV word missing, the length `0xFFFF`, a held fault. -/
theorem witness_CStartChecksThenOpensTheMessage :
    ((loaded 0xFFF0).err.ecode = 0 ∧ (loaded 0xFFF0).cipher.cst = .idle ∧ (loaded 0xFFF0).cipher.kmask.toNat = 15 ∧
      (loaded 0xFFF0).cipher.imask.toNat = 15 ∧ (loaded 0xFFF0).cipher.len.toNat % 16 = 0) ∧
    (running.err.ecode = 0 ∧ running.cipher.cst = .run) ∧
    (State.reset.err.ecode = 0 ∧ State.reset.cipher.cst = .idle ∧ State.reset.cipher.kmask.toNat ≠ 15) ∧
    (CipherUnit.writeIv (CipherUnit.writeIv (CipherUnit.writeIv CipherUnit.cleared 0 1) 1 1) 2 1).imask.toNat = 7 ∧
    ((loaded 0xFFFF).err.ecode = 0 ∧ (loaded 0xFFFF).cipher.cst = .idle ∧ (loaded 0xFFFF).cipher.kmask.toNat = 15 ∧
      (loaded 0xFFFF).cipher.imask.toNat = 15 ∧ (loaded 0xFFFF).cipher.len.toNat % 16 ≠ 0) ∧
    held.err.ecode ≠ 0 := by decide

/-- The last block of a message in both directions, `IDLE`, `RUN` with nothing left (V2.4), and a fault held. -/
theorem witness_CBlockProcessesOneBlock :
    ((started 16 .encrypt true plain1).err.ecode = 0 ∧ (started 16 .encrypt true plain1).cipher.cst = .run ∧
      16 ≤ (started 16 .encrypt true plain1).cipher.rem.toNat ∧ (started 16 .encrypt true plain1).cipher.dir = .encrypt) ∧
    ((started 16 .decrypt true cipher1).err.ecode = 0 ∧ (started 16 .decrypt true cipher1).cipher.cst = .run ∧
      16 ≤ (started 16 .decrypt true cipher1).cipher.rem.toNat ∧
      (started 16 .decrypt true cipher1).cipher.dir = .decrypt) ∧
    ((loaded 16).err.ecode = 0 ∧ (loaded 16).cipher.cst = .idle) ∧
    ((started 0 .encrypt false plain1).err.ecode = 0 ∧ (started 0 .encrypt false plain1).cipher.cst = .run ∧
      (started 0 .encrypt false plain1).cipher.rem.toNat < 16) ∧ held.err.ecode ≠ 0 := by decide

theorem witness_CFinishClosesACompleteMessage :
    ((started 0 .encrypt false plain1).err.ecode = 0 ∧ (started 0 .encrypt false plain1).cipher.cst = .run ∧
      (started 0 .encrypt false plain1).cipher.rem.toNat = 0) ∧
    ((loaded 16).err.ecode = 0 ∧ (loaded 16).cipher.cst = .idle) ∧
    ((started 16 .encrypt false plain1).err.ecode = 0 ∧ (started 16 .encrypt false plain1).cipher.cst = .run ∧
      (started 16 .encrypt false plain1).cipher.rem.toNat ≠ 0) ∧ held.err.ecode ≠ 0 := by decide

theorem witness_CAbortLeavesTheMessage :
    (running.err.ecode = 0 ∧ running.cipher.cst = .run) ∧
    (State.reset.err.ecode = 0 ∧ State.reset.cipher.cst = .idle) ∧ held.err.ecode ≠ 0 := by decide

theorem witness_TapEqualsSixteenByteWrites :
    (started 16 .decrypt true cipher1).err.ecode = 0 ∧ (started 16 .decrypt true cipher1).cipher.cst = .run ∧
    16 ≤ (started 16 .decrypt true cipher1).cipher.rem.toNat ∧ (started 16 .decrypt true cipher1).cipher.tap = true := by decide

/-- Both directions, with a chaining value that differs from the state's. -/
theorem witness_ChainDifferencesShowInTheOutput :
    (running.err.ecode = 0 ∧ running.cipher.cst = .run ∧ 16 ≤ running.cipher.rem.toNat ∧ running.cipher.dir = .encrypt ∧
      Block.zero ≠ running.cipher.cv) ∧
    ((started 16 .decrypt false cipher1).err.ecode = 0 ∧ (started 16 .decrypt false cipher1).cipher.cst = .run ∧
      16 ≤ (started 16 .decrypt false cipher1).cipher.rem.toNat ∧ (started 16 .decrypt false cipher1).cipher.dir = .decrypt) := by decide

theorem witness_EnvEncodeYieldsCiphertextAndChecksum :
    State.reset.Ready ∧ [plain1].length ≤ 4095 ∧ (List.replicate 4095 plain1).length ≤ 4095 :=
  ⟨⟨rfl, rfl⟩, by decide, by rw [List.length_replicate]⟩

/-- A packet without ciphertext and one with a block pass the host's checks. -/
theorem witness_EnvDecodeYieldsPlaintextAndVerdict :
    State.reset.Ready ∧ frameCheck emptyPacket = .ok 0 ∧ frameCheck blockPacket = .ok 16 :=
  ⟨⟨rfl, rfl⟩, by decide, by decide +kernel⟩

theorem witness_EnvelopeTransactionCounts : frameCheck emptyPacket = .ok 0 ∧ frameCheck blockPacket = .ok 16 := by decide

/-- An aligned payload and one a byte longer, under both values of the parameter. -/
theorem witness_HostFramingAndPadding :
    (padPayload false (List.replicate 16 7)).length = 16 ∧ (padPayload true (List.replicate 16 7)).length = 32 ∧
    (padPayload false (List.replicate 17 7)).length = 32 ∧ (padPayload true (List.replicate 17 7)).length = 32 := by decide

/-- The three clauses: `EACK`, `SRST`, and an operation that is ignored. -/
theorem witness_FaultedStateIgnoresWrites :
    held.err.ecode ≠ 0 ∧
    (pendingOf held 0x830000007E = .transaction 0x830000007E :: [] ∧ (0x830000007E#40).getLsbD 39 = true) ∧
    (pendingOf held 0x830000007F = .transaction 0x830000007F :: [] ∧ (0x830000007F#40).getLsbD 39 = true) ∧
    (pendingOf held 0x8200000009 = .transaction 0x8200000009 :: [] ∧ (0x8200000009#40).getLsbD 39 = true) := by decide

/-- A step that raises a fault, by a command and by another write. -/
theorem witness_FaultsArePrecise :
    pendingOf running 0x8300000010 = .transaction 0x8300000010 :: [] ∧ running.err.ecode = 0 ∧
    one running 0x8300000010 (decide <| ·.err.ecode ≠ 0) = some true ∧
    one running 0x9B00000001 (decide <| ·.err.ecode ≠ 0) = some true := by decide

/-- A step that raises each of the five codes. -/
theorem witness_FaultCodesComeFromTheirOperations :
    State.reset.err.ecode = 0 ∧ running.err.ecode = 0 ∧
    one State.reset 0x8000000000 (·.err.ecode) = some 1 ∧ one State.reset 0x8300000010 (·.err.ecode) = some 2 ∧
    one running 0x8300000012 (·.err.ecode) = some 3 ∧ one State.reset 0x8B00000000 (·.err.ecode) = some 4 ∧
    one running 0x9000000001 (·.err.ecode) = some 5 := by decide

/-- A block of an open message leaves it open. -/
theorem witness_MessageParametersAreFrozen :
    (running.issue [0x8300000011]).cipher.cst = .run ∧ one running 0x8300000011 (·.cipher.cst) = some .run := by decide

/-- A message is opened by `C_START`, and left by `C_FINISH`, `C_ABORT`, `SRST` and `Reset`. -/
theorem witness_SequencerMovesOnlyByItsCommands :
    ((loaded 16).cipher.cst = .idle ∧ one (loaded 16) 0x8300000010 (·.cipher.cst) = some .run) ∧
    ((started 0 .encrypt false plain1).cipher.cst = .run ∧
      one (started 0 .encrypt false plain1) 0x8300000012 (·.cipher.cst) = some .idle) ∧
    (running.cipher.cst = .run ∧ one running 0x8300000013 (·.cipher.cst) = some .idle ∧
      one running 0x830000007F (·.cipher.cst) = some .idle ∧
      after (step { running with port := ⟨[.reset], []⟩ }) (·.cipher.cst) = some .idle) := by decide

/-- Steps that change the registers the statement names. -/
theorem witness_EachRegisterHasItsWriters :
    one (summing 0x0102 0x0301 2) 0x8300000001 (fun s => decide (s.ck ≠ (summing 0x0102 0x0301 2).ck)) = some true ∧
    one (started 16 .encrypt true plain1) 0x8300000011 (fun s =>
      decide (s.ck ≠ CkUnit.seeded ∧ s.cipher.dout ≠ Block.zero ∧ s.cipher.cv ≠ (loaded 16).cipher.iv ∧
        s.cipher.rem ≠ 16)) = some true ∧
    one (loaded 16) 0x8300000020 (fun s => decide (s.cipher.key ≠ (loaded 16).cipher.key ∧ s.cipher.kmask ≠ 15)) =
      some true ∧
    one State.reset 0x9800000001 (fun s => decide (s.cipher.iv ≠ Block.zero ∧ s.cipher.imask ≠ 0)) = some true ∧
    one State.reset 0x9C00000001 (fun s => decide (s.cipher.din ≠ Block.zero)) = some true ∧
    one State.reset 0x8200000009 (fun s => decide (s.cipher.dir ≠ .encrypt ∧ s.cipher.tap ≠ false)) = some true ∧
    one State.reset 0x8500000010 (fun s => decide (s.cipher.len ≠ 0)) = some true ∧
    one (started 0 .encrypt false plain1) 0x8300000012 (fun s => decide (s.cipher.done ≠ false ∧ s.cipher.cst ≠ .run)) =
      some true ∧
    one held 0x830000007E (fun s => decide (s.err ≠ held.err)) = some true := by decide +kernel

/-- An open message, and the step that processes its block. -/
theorem witness_GoodStatesStayGood :
    (running.issue [0x8300000011]).Good ∧ one running 0x8300000011 (·.cipher.rem) = some 48 := by
  refine ⟨?_, by decide⟩
  simp only [State.Good, CkUnit.Good, CipherUnit.Good, FaultRecord.Good, s1Bound, s2Bound]
  decide

/-- A key write and a read of a key index are no `C_BLOCK`. -/
theorem witness_KeyIsNeverReadBack :
    pendingOf State.reset 0x9000000001 = .transaction 0x9000000001 :: [] ∧ decodeWord 0x9000000001 ≠ .cBlock ∧
    pendingOf running 0x1000000000 = .transaction 0x1000000000 :: [] ∧ decodeWord 0x1000000000 ≠ .cBlock := by decide

end Sys2Proof.Tests
end

/-! The decoder of 30_encoding.md: what it answers for each row, and that it loses nothing of the word. -/

namespace Sys2Proof.Encoding

open Sys2Proof.Machine Sys2Proof.Laws

/-! ## Bits that are required to be 0 (30_encoding.md R103) -/

/-- The bits from `k` up are 0 exactly when the number is below `2 ^ k`. -/
theorem and_highMask_eq_zero_iff {w : Nat} (x : BitVec w) (k : Nat) :
    x &&& BitVec.allOnes w <<< k = 0 ↔ x.toNat < 2 ^ k := by
  constructor
  · intro h
    apply Nat.lt_pow_two_of_testBit
    intro i hi
    rw [BitVec.testBit_toNat]
    have hbit := congrArg (BitVec.getLsbD · i) h
    by_cases hw : i < w
    · have hik : i - k < w := (Nat.sub_le i k).trans_lt hw
      simpa [hw, hik, Nat.not_lt.2 hi] using hbit
    · exact BitVec.getLsbD_of_ge x i (Nat.not_lt.1 hw)
  · intro h
    apply BitVec.eq_of_getLsbD_eq
    intro i hi
    by_cases hk : i < k
    · simp [hk]
    · have hbit : x.getLsbD i = false :=
        Nat.testBit_lt_two_pow (h.trans_le (Nat.pow_le_pow_right two_pos (Nat.not_lt.1 hk)))
      simp [hbit]

theorem high16_zero_iff (data : Word) : data &&& 0xFFFF0000 = 0 ↔ data.toNat < 2 ^ 16 :=
  and_highMask_eq_zero_iff data 16

theorem high24_zero_iff (data : Word) : data &&& 0xFFFFFF00 = 0 ↔ data.toNat < 2 ^ 8 :=
  and_highMask_eq_zero_iff data 8

theorem high28_zero_iff (data : Word) : data &&& 0xFFFFFFF0 = 0 ↔ data.toNat < 2 ^ 4 :=
  and_highMask_eq_zero_iff data 4

/-- The four data words that `WR.CTRL` accepts (42_system.md R234). -/
theorem ctrlWord_cases {data : Word} (h : data.toNat ∈ [0x0, 0x1, 0x8, 0x9]) :
    data = 0x0 ∨ data = 0x1 ∨ data = 0x8 ∨ data = 0x9 := by
  simpa [← BitVec.toNat_inj] using h

/-- Only bits 3 and 0 of a `CTRL` word may be set. -/
theorem ctrlReserved_zero_iff (data : Word) : data &&& 0xFFFFFFF6 = 0 ↔ data.toNat ∈ [0x0, 0x1, 0x8, 0x9] := by
  constructor
  · intro h
    have hlow : data.toNat < 2 ^ 4 := by
      rw [← high28_zero_iff]
      calc data &&& 0xFFFFFFF0 = (data &&& 0xFFFFFFF6) &&& 0xFFFFFFF0 := by rw [BitVec.and_assoc]; rfl
        _ = 0 := by rw [h]; rfl
    have hfour : data.toNat &&& 0xFFFFFFF6 = 0 := congrArg BitVec.toNat h
    generalize data.toNat = v at hlow hfour ⊢
    interval_cases v <;> simp_all
  · intro h
    rcases ctrlWord_cases h with rfl | rfl | rfl | rfl <;> rfl

/-! ## Register groups -/

/-- Only the index's upper five bits decide whether it is in a group. -/
theorem and_7C_toNat (idx : Idx) : (idx &&& 0x7C).toNat = idx.toNat / 4 * 4 := by
  revert idx
  decide

theorem inGroup_iff (base idx : Idx) : inGroup base idx = true ↔ idx.toNat / 4 * 4 = base.toNat := by
  rw [inGroup, beq_iff_eq, ← BitVec.toNat_inj, and_7C_toNat]

/-- An index in a group is the register of the group that its low two bits number. -/
theorem groupIdx_wordNoOf {base idx : Idx} (h : inGroup base idx = true) : groupIdx base (wordNoOf idx) = idx := by
  rw [inGroup_iff] at h
  apply BitVec.eq_of_toNat_eq
  simp only [groupIdx, wordNoOf, Fin.val_ofNat, BitVec.toNat_add, BitVec.toNat_ofNat]
  omega

theorem groupIdx_and_7C {base : Idx} (hbase : base.toNat % 4 = 0) (n : WordNo) : groupIdx base n &&& 0x7C = base := by
  apply BitVec.eq_of_toNat_eq
  simp only [and_7C_toNat, groupIdx, BitVec.toNat_add, BitVec.toNat_ofNat]
  omega

theorem groupIdx_toNat_mod_four {base : Idx} (hbase : base.toNat % 4 = 0) (n : WordNo) :
    (groupIdx base n).toNat % 4 = n.val := by
  simp only [groupIdx, BitVec.toNat_add, BitVec.toNat_ofNat]
  omega

/-! ## The decoder keeps the transaction: write bit, index, and the data of a write -/

theorem ctrlData_operands {data : Word} (h : data &&& 0xFFFFFFF6 = 0) :
    ctrlData (Direction.ofBit (data.getLsbD 0)) (data.getLsbD 3) = data := by
  rcases ctrlWord_cases ((ctrlReserved_zero_iff data).1 h) with rfl | rfl | rfl | rfl <;> rfl

/-- A word below `2 ^ k` is its low `k` bits, zero-extended. -/
theorem setWidth_setWidth_of_lt {w : Nat} {x : BitVec w} {k : Nat} (h : x.toNat < 2 ^ k) :
    (x.setWidth k).setWidth w = x := by
  apply BitVec.eq_of_toNat_eq
  simp only [BitVec.toNat_setWidth, Nat.mod_eq_of_lt h, Nat.mod_eq_of_lt x.isLt]

theorem setWidth_lt {k : Nat} (x : BitVec k) : (x.setWidth 32).toNat < 2 ^ k :=
  BitVec.toNat_setWidth 32 x ▸ (Nat.mod_le _ _).trans_lt x.isLt

theorem transactionOf_decodeRead (idx : Idx) : transactionOf (decodeRead idx) = (false, idx, 0) := by
  fun_cases decodeRead idx
  case case1 h | case2 h | case3 h | case4 h | case5 h | case6 h | case7 h | case8 h => rw [h, transactionOf]
  case case9 hgroup | case10 hgroup | case11 hgroup | case12 hgroup => rw [transactionOf, groupIdx_wordNoOf hgroup]
  case case13 => rfl

theorem transactionOf_decodeCommand (data : Word) : transactionOf (decodeCommand data) = (true, Reg.cmd, data) := by
  fun_cases decodeCommand data
  case case1 h | case2 h | case3 h | case4 h | case5 h | case6 h | case7 h | case8 h | case9 h => rw [h, transactionOf]
  case case10 => rfl

theorem transactionOf_decodeWrite (idx : Idx) (data : Word) : transactionOf (decodeWrite idx data) = (true, idx, data) := by
  fun_cases decodeWrite idx data with
  | case1 hidx hzero => rw [hidx, transactionOf, ctrlData_operands hzero]
  | case3 _ hidx => rw [hidx, transactionOf_decodeCommand]
  | case4 _ _ hidx hzero => rw [hidx, transactionOf, setWidth_setWidth_of_lt ((high16_zero_iff data).1 hzero)]
  | case6 _ _ _ hidx hzero => rw [hidx, transactionOf, setWidth_setWidth_of_lt ((high24_zero_iff data).1 hzero)]
  | case8 _ _ _ _ hidx => rw [hidx, transactionOf]
  | case9 _ _ _ _ _ hidx hzero => rw [hidx, transactionOf, setWidth_setWidth_of_lt ((high16_zero_iff data).1 hzero)]
  | case11 _ _ _ _ _ _ hgroup | case12 _ _ _ _ _ _ _ hgroup | case13 _ _ _ _ _ _ _ _ hgroup =>
    rw [transactionOf, groupIdx_wordNoOf hgroup]
  | case2 | case5 | case7 | case10 | case14 => rfl

/-- The three fields of a word, seen from the operation it decodes to; a read keeps nothing of its data (R101). -/
theorem fields_of_decodeWord {t : TWord} {i : Instr} (h : decodeWord t = i) :
    weOf t = (transactionOf i).1 ∧ idxOf t = (transactionOf i).2.1 ∧
      ((transactionOf i).1 = true → dataOf t = (transactionOf i).2.2) := by
  subst h
  cases hw : weOf t
  · simp [decodeWord, hw, transactionOf_decodeRead]
  · simp [decodeWord, hw, transactionOf_decodeWrite]

/-! ## The operands (30_encoding.md R103) -/

theorem index_eq_bitField {t : TWord} {idx : Idx} (h : idxOf t = idx) : idx.toNat = t.toNat / 2 ^ 32 % 128 := by
  rw [← h, idxOf, BitVec.extractLsb'_toNat, Nat.shiftRight_eq_div_pow]

theorem data_eq_bitField {t : TWord} {data : Word} (h : dataOf t = data) : data.toNat = t.toNat % 2 ^ 32 := by
  rw [← h, dataOf, BitVec.extractLsb'_toNat, Nat.shiftRight_zero]

/-- The operand `n` is `T[33:32]`. -/
theorem wordNo_eq_bitField {t : TWord} {base : Idx} {n : WordNo} (h : idxOf t = groupIdx base n)
    (hbase : base.toNat % 4 = 0) : n.val = t.toNat / 2 ^ 32 % 4 := by
  have hidx := index_eq_bitField h
  have hn := groupIdx_toNat_mod_four hbase n
  omega

/-- An operand of `k` bits in a data word is `T[k-1:0]`, and the bits above it are 0. -/
theorem narrowOperand_eq_bitField {t : TWord} {k : Nat} {x : BitVec k} (hk : k ≤ 32) (h : dataOf t = x.setWidth 32) :
    x.toNat = t.toNat % 2 ^ k ∧ t.toNat / 2 ^ k % 2 ^ (32 - k) = 0 := by
  have hx : t.toNat % 2 ^ 32 = x.toNat := by
    rw [← data_eq_bitField h, BitVec.toNat_setWidth_of_le hk]
  have hsplit : 2 ^ 32 = 2 ^ k * 2 ^ (32 - k) := by rw [← pow_add, Nat.add_sub_cancel' hk]
  constructor
  · rw [← Nat.mod_mod_of_dvd t.toNat (Nat.pow_dvd_pow 2 hk), hx, Nat.mod_eq_of_lt x.isLt]
  · rw [hsplit] at hx
    rw [← Nat.mod_mul_right_div_self, hx, Nat.div_eq_of_lt x.isLt]

/-- `WR.CTRL`: `DIR` is `T[0]`, `TAP` is `T[3]`, and the other data bits are 0. -/
theorem ctrlOperands_eq_bitFields {t : TWord} {dir : Direction} {tap : Bool} (h : dataOf t = ctrlData dir tap) :
    dir = (if t.toNat % 2 = 1 then .decrypt else .encrypt) ∧ tap = decide (t.toNat / 2 ^ 3 % 2 = 1) ∧
      t.toNat / 2 % 4 = 0 ∧ t.toNat / 2 ^ 4 % 2 ^ 28 = 0 := by
  have hdata := data_eq_bitField h
  have hdir : t.toNat % 2 = (ctrlData dir tap).toNat % 2 := by omega
  have htap : t.toNat / 2 ^ 3 % 2 = (ctrlData dir tap).toNat / 2 ^ 3 % 2 := by omega
  have hmode : t.toNat / 2 % 4 = (ctrlData dir tap).toNat / 2 % 4 := by omega
  have hhigh : t.toNat / 2 ^ 4 % 2 ^ 28 = (ctrlData dir tap).toNat / 2 ^ 4 := by omega
  rw [hdir, htap, hmode, hhigh]
  cases dir <;> cases tap <;> decide

/-- The opcodes of 30_encoding.md R106. -/
def opcodes : List Byte :=
  [Opcode.nop, Opcode.ckInit, Opcode.cStart, Opcode.cBlock, Opcode.cFinish, Opcode.cAbort, Opcode.keyClear, Opcode.eack,
    Opcode.srst]

/-- A command's opcode is `T[7:0]`, one of the nine, and `T[31:8]` is 0. -/
theorem command_eq_bitField {t : TWord} {op : Byte} (hop : op ∈ opcodes) (h : dataOf t = commandData op) :
    t.toNat % 2 ^ 8 ∈ [0x00, 0x01, 0x10, 0x11, 0x12, 0x13, 0x20, 0x7E, 0x7F] ∧ t.toNat / 2 ^ 8 % 2 ^ 24 = 0 := by
  obtain ⟨hval, hhigh⟩ := narrowOperand_eq_bitField (by decide) h
  exact ⟨hval ▸ List.mem_map_of_mem (f := BitVec.toNat) hop, hhigh⟩

/-- Settles O5: the operands are read off the three fields of the word, which the operation determines. -/
theorem operandsAreTheirBitFields : Obligations.OperandsAreTheirBitFields := by
  intro t
  cases hi : decodeWord t <;> obtain ⟨-, hidx, hdata⟩ := fields_of_decodeWord hi
  case rdIv | rdDin | rdDout | rdCv => exact wordNo_eq_bitField hidx rfl
  case wrKey | wrIv | wrDin => exact ⟨wordNo_eq_bitField hidx rfl, data_eq_bitField (hdata rfl)⟩
  case wrCkData32 => exact data_eq_bitField (hdata rfl)
  case wrCkData8 => exact narrowOperand_eq_bitField (by decide) (hdata rfl)
  case wrLen | wrCkVerify => exact narrowOperand_eq_bitField (by decide) (hdata rfl)
  case wrCtrl => exact ctrlOperands_eq_bitFields (hdata rfl)
  case rdZero => exact index_eq_bitField hidx
  case wrIllegal => exact ⟨index_eq_bitField hidx, data_eq_bitField (hdata rfl)⟩
  case nop | ckInit | cStart | cBlock | cFinish | cAbort | keyClear | eack | srst =>
    exact command_eq_bitField (by decide) (hdata rfl)
  case rdId | rdStatus | rdCtrl | rdErr | rdLen | rdRem | rdCksum | rdCkAcc => trivial

/-! ## The illegal writes (30_encoding.md R107) -/

theorem decodeCommand_eq_wrIllegal_iff (data : Word) : decodeCommand data = .wrIllegal Reg.cmd data ↔
    data.toNat ∉ [0x00, 0x01, 0x10, 0x11, 0x12, 0x13, 0x20, 0x7E, 0x7F] := by
  fun_cases decodeCommand data
  case case10 h0 h1 h2 h3 h4 h5 h6 h7 h8 =>
    simp only [← BitVec.toNat_inj] at h0 h1 h2 h3 h4 h5 h6 h7 h8
    simpa using ⟨h0, h1, h2, h3, h4, h5, h6, h7, h8⟩
  case case1 h | case2 h | case3 h | case4 h | case5 h | case6 h | case7 h | case8 h | case9 h =>
    rw [h]
    decide

/-- An index that no row of the write map takes is a read-only register or reserved (cases 1 and 2 of R107). -/
theorem unwritable_index {v : Nat} (hv : v < 128) (hctrl : v ≠ 0x02) (hcmd : v ≠ 0x03) (hlen : v ≠ 0x05)
    (hdata8 : v ≠ 0x08) (hdata32 : v ≠ 0x09) (hverify : v ≠ 0x0B) (hkey : v / 4 * 4 ≠ 0x10) (hiv : v / 4 * 4 ≠ 0x18)
    (hdin : v / 4 * 4 ≠ 0x1C) :
    (v ∈ [0x00, 0x01, 0x04, 0x06, 0x0A, 0x0C] ∨ (0x20 ≤ v ∧ v ≤ 0x27)) ∨
    (v = 0x07 ∨ (0x0D ≤ v ∧ v ≤ 0x0F) ∨ (0x14 ≤ v ∧ v ≤ 0x17) ∨ 0x28 ≤ v) := by
  simp only [List.mem_cons, List.not_mem_nil, or_false]
  omega

/-- A write is illegal by its index, by reserved data bits, or by an undefined opcode: the six cases of R107. -/
theorem decodeWrite_eq_wrIllegal_iff (idx : Idx) (data : Word) : decodeWrite idx data = .wrIllegal idx data ↔
    (idx.toNat ∈ [0x00, 0x01, 0x04, 0x06, 0x0A, 0x0C] ∨ (0x20 ≤ idx.toNat ∧ idx.toNat ≤ 0x27)) ∨
    (idx.toNat = 0x07 ∨ (0x0D ≤ idx.toNat ∧ idx.toNat ≤ 0x0F) ∨ (0x14 ≤ idx.toNat ∧ idx.toNat ≤ 0x17) ∨
      0x28 ≤ idx.toNat) ∨
    (idx.toNat = 0x02 ∧ data.toNat ∉ [0x0, 0x1, 0x8, 0x9]) ∨
    ((idx.toNat = 0x05 ∨ idx.toNat = 0x0B) ∧ 2 ^ 16 ≤ data.toNat) ∨
    (idx.toNat = 0x08 ∧ 2 ^ 8 ≤ data.toNat) ∨
    (idx.toNat = 0x03 ∧ data.toNat ∉ [0x00, 0x01, 0x10, 0x11, 0x12, 0x13, 0x20, 0x7E, 0x7F]) := by
  fun_cases decodeWrite idx data with
  | case1 hidx hzero | case2 hidx hzero =>
    rw [ctrlReserved_zero_iff] at hzero
    simp [hidx, Reg.ctrl, hzero]
  | case3 _ hidx =>
    rw [hidx, decodeCommand_eq_wrIllegal_iff]
    simp [Reg.cmd]
  | case4 _ _ hidx hzero | case5 _ _ hidx hzero =>
    rw [high16_zero_iff] at hzero
    simpa [hidx, Reg.len] using hzero
  | case6 _ _ _ hidx hzero | case7 _ _ _ hidx hzero =>
    rw [high24_zero_iff] at hzero
    simpa [hidx, Reg.ckData8] using hzero
  | case8 _ _ _ _ hidx => simp [hidx, Reg.ckData32]
  | case9 _ _ _ _ _ hidx hzero | case10 _ _ _ _ _ hidx hzero =>
    rw [high16_zero_iff] at hzero
    simpa [hidx, Reg.ckVerify] using hzero
  | case11 _ _ _ _ _ _ hgroup | case12 _ _ _ _ _ _ _ hgroup | case13 _ _ _ _ _ _ _ _ hgroup =>
    rw [← groupIdx_wordNoOf hgroup]
    generalize wordNoOf idx = n
    fin_cases n <;> simp [groupIdx, Reg.key0, Reg.iv0, Reg.din0]
  | case14 hctrl hcmd hlen hdata8 hdata32 hverify hkey hiv hdin =>
    simp only [← BitVec.toNat_inj] at hctrl hcmd hlen hdata8 hdata32 hverify
    simp only [inGroup_iff] at hkey hiv hdin
    have hunwritable := unwritable_index idx.isLt hctrl hcmd hlen hdata8 hdata32 hverify hkey hiv hdin
    exact iff_of_true rfl (or_assoc.1 (.inl hunwritable))

/-- The record of an illegal write, with the index as a number (60_exceptions.md R291, R296). -/
theorem raiseFault_illegal (idx : Idx) (data : Word) (s : State) : raiseFault .illegal idx data s =
    s.recorded 1 idx (if idx.toNat = 0x03 then BitVec.ofNat 8 data.toNat else 0) := by
  have hcmd : idx = Reg.cmd ↔ idx.toNat = 0x03 := (BitVec.toNat_inj (y := Reg.cmd)).symm
  simp only [raiseFault, hcmd]
  rfl

/-- Settles O7: the six cases are the remainder of the write map, and the fault record is the one of R296. -/
theorem illegalWritesFault : Obligations.IllegalWritesFault := by
  intro idx data
  rw [decodeWord_writeWord]
  refine ⟨decodeWrite_eq_wrIllegal_iff idx data, fun s => ⟨fun hnone => ?_, fun hheld => ?_⟩⟩
  · rw [exec_wrIllegal, execWrIllegal, acceptWrite_unfaulted hnone, raiseFault_illegal]
  · rw [exec_wrIllegal, execWrIllegal, acceptWrite_faulted hheld]

/-! ## The opcode table (30_encoding.md R112) -/

/-- Masking a transaction word masks its three fields. -/
theorem fields_and (t m : TWord) : weOf (t &&& m) = (weOf t && weOf m) ∧ idxOf (t &&& m) = idxOf t &&& idxOf m ∧
    dataOf (t &&& m) = dataOf t &&& dataOf m :=
  ⟨BitVec.getLsbD_and, BitVec.extractLsb'_and, BitVec.extractLsb'_and⟩

/-- A word matches a row when its write bit, its masked index and its masked data are the row's. -/
theorem and_eq_packWord_iff (t : TWord) (we : Bool) (im ib : Idx) (dm db : Word) :
    t &&& packWord true im dm = packWord we ib db ↔ weOf t = we ∧ idxOf t &&& im = ib ∧ dataOf t &&& dm = db := by
  obtain ⟨hwe, hidx, hdata⟩ := fields_and t (packWord true im dm)
  simp only [weOf_packWord, idxOf_packWord, dataOf_packWord, Bool.and_true] at hwe hidx hdata
  rw [← hwe, ← hidx, ← hdata]
  constructor
  · intro h
    simp [h]
  · rintro ⟨hw, hi, hd⟩
    exact tword_ext (by simpa using hw) (by simpa using hi) (by simpa using hd)

theorem and_7F (idx : Idx) : idx &&& 0x7F = idx := BitVec.and_allOnes

/-! ### What the words of a row decode to -/

section Row

variable {t : TWord}

/-- A read row of one register (mask `FF 00000000`). -/
theorem decodeWord_of_read_row (idx : Idx) (h : t &&& 0xFF00000000 = readWord idx) : decodeWord t = decodeRead idx := by
  obtain ⟨hwe, hidx, -⟩ := (and_eq_packWord_iff t false 0x7F idx 0 0).1 h
  rw [and_7F] at hidx
  simp [decodeWord, hwe, hidx]

/-- A read row of four registers (mask `FC 00000000`). -/
theorem decodeWord_of_read_group (base : Idx) (h : t &&& 0xFC00000000 = readWord base) :
    ∃ n, decodeWord t = decodeRead (groupIdx base n) := by
  obtain ⟨hwe, hidx, -⟩ := (and_eq_packWord_iff t false 0x7C base 0 0).1 h
  have hgroup : inGroup base (idxOf t) = true := beq_iff_eq.2 hidx
  exact ⟨wordNoOf (idxOf t), by simp [decodeWord, hwe, groupIdx_wordNoOf hgroup]⟩

/-- A write row of one register, with the data bits `dm` required to be 0. -/
theorem decodeWord_of_write_row (idx : Idx) (dm : Word) (h : t &&& packWord true 0x7F dm = writeWord idx 0) :
    decodeWord t = decodeWrite idx (dataOf t) ∧ dataOf t &&& dm = 0 := by
  obtain ⟨hwe, hidx, hzero⟩ := (and_eq_packWord_iff t true 0x7F idx dm 0).1 h
  rw [and_7F] at hidx
  exact ⟨by simp [decodeWord, hwe, hidx], hzero⟩

/-- A write row of four registers (mask `FC 00000000`). -/
theorem decodeWord_of_write_group (base : Idx) (h : t &&& 0xFC00000000 = writeWord base 0) :
    ∃ n, decodeWord t = decodeWrite (groupIdx base n) (dataOf t) := by
  obtain ⟨hwe, hidx, -⟩ := (and_eq_packWord_iff t true 0x7C base 0 0).1 h
  have hgroup : inGroup base (idxOf t) = true := beq_iff_eq.2 hidx
  exact ⟨wordNoOf (idxOf t), by simp [decodeWord, hwe, groupIdx_wordNoOf hgroup]⟩

theorem mnemonic_of_read_row (idx : Idx) (h : t &&& 0xFF00000000 = readWord idx) :
    mnemonicOf (decodeWord t) = mnemonicOf (decodeRead idx) := congrArg mnemonicOf (decodeWord_of_read_row idx h)

theorem mnemonic_of_read_group {name : String} (base : Idx)
    (hrow : ∀ n, mnemonicOf (decodeRead (groupIdx base n)) = name) (h : t &&& 0xFC00000000 = readWord base) :
    mnemonicOf (decodeWord t) = name := by
  obtain ⟨n, hn⟩ := decodeWord_of_read_group base h
  rw [hn, hrow]

theorem mnemonic_of_write_row {name : String} (idx : Idx) (dm : Word)
    (hrow : ∀ data, data &&& dm = 0 → mnemonicOf (decodeWrite idx data) = name)
    (h : t &&& packWord true 0x7F dm = writeWord idx 0) : mnemonicOf (decodeWord t) = name := by
  obtain ⟨hdecode, hzero⟩ := decodeWord_of_write_row idx dm h
  rw [hdecode, hrow _ hzero]

theorem mnemonic_of_write_group {name : String} (base : Idx)
    (hrow : ∀ n data, mnemonicOf (decodeWrite (groupIdx base n) data) = name)
    (h : t &&& 0xFC00000000 = writeWord base 0) : mnemonicOf (decodeWord t) = name := by
  obtain ⟨n, hn⟩ := decodeWord_of_write_group base h
  rw [hn, hrow]

/-- A command row fixes the whole word. -/
theorem mnemonic_of_command_row (op : Byte) (h : t &&& 0xFFFFFFFFFF = commandWord op) :
    mnemonicOf (decodeWord t) = mnemonicOf (decodeCommand (commandData op)) := by
  have ht : t = commandWord op := BitVec.and_allOnes.symm.trans h
  rw [ht, commandWord, decodeWord_writeWord]
  rfl

end Row

/-- A word that matches a row decodes to that row. -/
theorem mnemonicOf_decodeWord_of_match (t : TWord) :
    ∀ r ∈ opRows, t &&& r.mask = r.code → mnemonicOf (decodeWord t) = r.mnemonic := by
  simp only [opRows, List.forall_mem_cons]
  exact ⟨mnemonic_of_read_row Reg.id, mnemonic_of_read_row Reg.status, mnemonic_of_read_row Reg.ctrl,
    mnemonic_of_read_row Reg.err, mnemonic_of_read_row Reg.len, mnemonic_of_read_row Reg.rem,
    mnemonic_of_read_row Reg.cksum, mnemonic_of_read_row Reg.ckAcc,
    mnemonic_of_read_group Reg.iv0 (by decide), mnemonic_of_read_group Reg.din0 (by decide),
    mnemonic_of_read_group Reg.dout0 (by decide), mnemonic_of_read_group Reg.cv0 (by decide),
    mnemonic_of_write_row Reg.ctrl 0xFFFFFFF6 fun _ hzero => congrArg mnemonicOf (if_pos hzero),
    mnemonic_of_write_row Reg.len 0xFFFF0000 fun _ hzero => congrArg mnemonicOf (if_pos hzero),
    mnemonic_of_write_row Reg.ckData8 0xFFFFFF00 fun _ hzero => congrArg mnemonicOf (if_pos hzero),
    mnemonic_of_write_row Reg.ckData32 0 fun _ _ => rfl,
    mnemonic_of_write_row Reg.ckVerify 0xFFFF0000 fun _ hzero => congrArg mnemonicOf (if_pos hzero),
    mnemonic_of_write_group Reg.key0 fun n _ => by fin_cases n <;> rfl,
    mnemonic_of_write_group Reg.iv0 fun n _ => by fin_cases n <;> rfl,
    mnemonic_of_write_group Reg.din0 fun n _ => by fin_cases n <;> rfl,
    mnemonic_of_command_row Opcode.nop, mnemonic_of_command_row Opcode.ckInit, mnemonic_of_command_row Opcode.cStart,
    mnemonic_of_command_row Opcode.cBlock, mnemonic_of_command_row Opcode.cFinish, mnemonic_of_command_row Opcode.cAbort,
    mnemonic_of_command_row Opcode.keyClear, mnemonic_of_command_row Opcode.eack, mnemonic_of_command_row Opcode.srst,
    fun _ h => absurd h (List.not_mem_nil)⟩

/-! ### The row of an operation -/

section OperationRow

variable {t : TWord} {we : Bool}

/-- A word matches a row of the table that has its masked fields. -/
theorem exists_row_of_fields (im ib : Idx) (dm db : Word) (hwe : weOf t = we) (hidx : idxOf t &&& im = ib)
    (hdata : dataOf t &&& dm = db) (hrow : ∃ r ∈ opRows, r.mask = packWord true im dm ∧ r.code = packWord we ib db) :
    ∃ r ∈ opRows, t &&& r.mask = r.code := by
  obtain ⟨r, hr, hmask, hcode⟩ := hrow
  refine ⟨r, hr, ?_⟩
  rw [hmask, hcode]
  exact (and_eq_packWord_iff ..).2 ⟨hwe, hidx, hdata⟩

theorem exists_row_of_register {idx : Idx} (dm db : Word) (hwe : weOf t = we) (hidx : idxOf t = idx)
    (hdata : dataOf t &&& dm = db)
    (hrow : ∃ r ∈ opRows, r.mask = packWord true 0x7F dm ∧ r.code = packWord we idx db) :
    ∃ r ∈ opRows, t &&& r.mask = r.code :=
  exists_row_of_fields 0x7F idx dm db hwe ((and_7F _).trans hidx) hdata hrow

theorem exists_row_of_group {base : Idx} {n : WordNo} (hwe : weOf t = we) (hidx : idxOf t = groupIdx base n)
    (hbase : base.toNat % 4 = 0) (hrow : ∃ r ∈ opRows, r.mask = 0xFC00000000 ∧ r.code = packWord we base 0) :
    ∃ r ∈ opRows, t &&& r.mask = r.code :=
  exists_row_of_fields 0x7C base 0 0 hwe (hidx ▸ groupIdx_and_7C hbase n) BitVec.and_zero hrow

end OperationRow

/-- A word decodes to a fallback of R112 or matches a row. -/
theorem fallback_or_exists_row (t : TWord) :
    (∃ idx, decodeWord t = .rdZero idx) ∨ (∃ idx data, decodeWord t = .wrIllegal idx data) ∨
      ∃ r ∈ opRows, t &&& r.mask = r.code := by
  cases hi : decodeWord t <;> obtain ⟨hwe, hidx, hdata⟩ := fields_of_decodeWord hi
  case rdZero idx => exact .inl ⟨idx, rfl⟩
  case wrIllegal idx data => exact .inr (.inl ⟨idx, data, rfl⟩)
  all_goals
    dsimp only [transactionOf] at hwe hidx
    refine .inr (.inr ?_)
  case rdId | rdStatus | rdCtrl | rdErr | rdLen | rdRem | rdCksum | rdCkAcc =>
    exact exists_row_of_register 0 0 hwe hidx BitVec.and_zero (by decide)
  case rdIv | rdDin | rdDout | rdCv | wrKey | wrIv | wrDin => exact exists_row_of_group hwe hidx rfl (by decide)
  case wrCkData32 => exact exists_row_of_register 0 0 hwe hidx BitVec.and_zero (by decide)
  case wrCtrl dir tap =>
    have hzero : ctrlData dir tap &&& 0xFFFFFFF6 = 0 := by cases dir <;> cases tap <;> rfl
    exact exists_row_of_register 0xFFFFFFF6 0 hwe hidx (hdata rfl ▸ hzero) (by decide)
  case wrLen v | wrCkVerify v =>
    exact exists_row_of_register 0xFFFF0000 0 hwe hidx (hdata rfl ▸ (high16_zero_iff _).2 (setWidth_lt v)) (by decide)
  case wrCkData8 byte =>
    exact exists_row_of_register 0xFFFFFF00 0 hwe hidx (hdata rfl ▸ (high24_zero_iff _).2 (setWidth_lt byte)) (by decide)
  case nop | ckInit | cStart | cBlock | cFinish | cAbort | keyClear | eack | srst =>
    exact exists_row_of_register 0xFFFFFFFF _ hwe hidx (BitVec.and_allOnes.trans (hdata rfl)) (by decide)

/-- A word that matches no row decodes to the fallback of its kind. -/
theorem mnemonicOf_decodeWord_of_no_match (t : TWord) (h : ∀ r ∈ opRows, t &&& r.mask ≠ r.code) :
    mnemonicOf (decodeWord t) = if weOf t then "WR.ILLEGAL" else "RD.ZERO" := by
  rcases fallback_or_exists_row t with ⟨idx, hread⟩ | ⟨idx, data, hwrite⟩ | ⟨r, hr, hmatch⟩
  · obtain ⟨hwe, -⟩ := fields_of_decodeWord hread
    rw [hread, hwe]
    rfl
  · obtain ⟨hwe, -⟩ := fields_of_decodeWord hwrite
    rw [hwrite, hwe]
    rfl
  · exact absurd hmatch (h r hr)

/-- No two rows match the same word: it would decode to both, and the rows have different mnemonics. -/
theorem opRows_disjoint :
    opRows.Pairwise fun a b => ∀ t : TWord, ¬ (t &&& a.mask = a.code ∧ t &&& b.mask = b.code) := by
  have hnames : opRows.Pairwise fun a b => a.mnemonic ≠ b.mnemonic := by decide
  refine hnames.imp_of_mem fun {a b} ha hb hne t ⟨hmatchA, hmatchB⟩ => hne ?_
  rw [← mnemonicOf_decodeWord_of_match t a ha hmatchA, mnemonicOf_decodeWord_of_match t b hb hmatchB]

/-- Settles O4: each row by the decoder's branch for it, the fallbacks because every other operation has a row, and
disjointness from the two rows' mnemonics. -/
theorem decodeFollowsOpcodeTable : Obligations.DecodeFollowsOpcodeTable :=
  ⟨mnemonicOf_decodeWord_of_match, mnemonicOf_decodeWord_of_no_match, opRows_disjoint⟩

end Sys2Proof.Encoding

/-! The checksum unit's writes of 40_checksum.md R138 to R141: what each decodes to, does, and leaves unchanged. -/

namespace Sys2Proof.Checksum

open Sys2Proof.Machine Sys2Proof.Encoding

/-! ## The write map's rows of the checksum unit (30_encoding.md R105) -/

theorem decodeWrite_ckData8 (data : Word) : decodeWrite 0x08 data =
    if data.toNat < 2 ^ 8 then .wrCkData8 (BitVec.ofNat 8 data.toNat) else .wrIllegal 0x08 data := by
  simp only [← high24_zero_iff]
  rfl

theorem decodeWrite_ckData32 (data : Word) : decodeWrite 0x09 data = .wrCkData32 data := rfl

theorem decodeWrite_ckVerify (data : Word) : decodeWrite 0x0B data =
    if data.toNat < 2 ^ 16 then .wrCkVerify (BitVec.ofNat 16 data.toNat) else .wrIllegal 0x0B data := by
  simp only [← high16_zero_iff]
  rfl

/-! ## Feeding bytes (40_checksum.md R138, R139) -/

/-- The state after a data write that carries the bytes `bs`: they are absorbed in order, unless a fault is held. -/
def feed (s : State) (bs : List Byte) : State := acceptWrite s fun s => s.withCk (absorbAll s.ck bs)

theorem feed_unfaulted {s : State} (h : s.err.ecode = 0) (bs : List Byte) :
    feed s bs = s.withCk (absorbAll s.ck bs) :=
  acceptWrite_unfaulted h _

theorem feed_faulted {s : State} (h : s.err.ecode ≠ 0) (bs : List Byte) : feed s bs = s :=
  acceptWrite_faulted h _

theorem exec_wrCkData8_eq_feed (b : Byte) (s : State) : exec (.wrCkData8 b) s = .next (feed s [b]) := rfl

theorem exec_wrCkData32_eq_feed (w : Word) (s : State) : exec (.wrCkData32 w) s = .next (feed s (bytesOf w)) := rfl

/-- Feeding does not raise or clear a fault, so two writes are both performed or both ignored. -/
theorem feed_append (s : State) (as bs : List Byte) : feed s (as ++ bs) = feed (feed s as) bs := by
  by_cases h : s.err.ecode = 0
  · have hfed : (s.withCk (absorbAll s.ck as)).err.ecode = 0 := h
    rw [feed_unfaulted h, feed_unfaulted h, feed_unfaulted hfed, State.withCk_ck, absorbAll_append]
    rfl
  · rw [feed_faulted h, feed_faulted h, feed_faulted h]

/-- A byte of a word is the low byte of the shifted number (20_memory.md R72). -/
theorem byteOf_eq_ofNat (w : Word) (j : Fin 4) : byteOf w j = BitVec.ofNat 8 (w.toNat / 2 ^ (8 * j.val)) := by
  apply BitVec.eq_of_toNat_eq
  rw [byteOf_toNat, BitVec.toNat_ofNat, Nat.pow_mul]

theorem bytesOf_eq_ofNat (w : Word) : bytesOf w =
    [BitVec.ofNat 8 w.toNat, BitVec.ofNat 8 (w.toNat / 2 ^ 8), BitVec.ofNat 8 (w.toNat / 2 ^ 16),
      BitVec.ofNat 8 (w.toNat / 2 ^ 24)] := by
  simp [bytesOf, byteOf_eq_ofNat]

/-! ## The checksum as a number (40_checksum.md R132, R134) -/

/-- One fold of 16 bits is at most `0x1FE`, so that a second one, where it is due, leaves a byte. -/
theorem fold8_toNat_lt (s : Half) : (fold8 s).toNat < 2 ^ 8 := by
  have hs : s.toNat < 2 ^ 16 := s.isLt
  have honce := fold1_toNat s
  have htwice := fold1_toNat (fold1 s)
  unfold fold8
  split
  · omega
  · next hsmall =>
    have : ¬ 255 < (fold1 s).toNat := hsmall
    omega

theorem cksum_toNat (k : CkUnit) : (cksum k).toNat = 2 ^ 8 * (fold8 k.s2).toNat + (fold8 k.s1).toNat := by
  have hhigh := fold8_toNat_lt k.s2
  have hlow := fold8_toNat_lt k.s1
  have hshift : (fold8 k.s2).toNat <<< 8 < 2 ^ 16 := by rw [Nat.shiftLeft_eq]; omega
  rw [cksum, BitVec.toNat_or, BitVec.toNat_shiftLeft, Nat.mod_eq_of_lt hshift, ← Nat.shiftLeft_add_eq_or_of_lt hlow,
    Nat.shiftLeft_eq, Nat.mul_comm]

theorem cksum_eq_iff (k : CkUnit) (expect : Half) :
    cksum k = expect ↔ expect.toNat = 2 ^ 8 * (fold8 k.s2).toNat + (fold8 k.s1).toNat := by
  rw [← BitVec.toNat_inj, cksum_toNat, eq_comm]

/-! ## The statements -/

/-- Settles O23: `CK_INIT` is gated by the fault record and by nothing else. -/
theorem ckInitSeedsTheAccumulators : Obligations.CkInitSeedsTheAccumulators := by
  refine ⟨by decide, fun s => ⟨fun hnone => ?_, fun hheld => ?_⟩⟩
  · rw [exec_ckInit, execCkInit, acceptWrite_unfaulted hnone]
    rfl
  · rw [exec_ckInit, execCkInit, acceptWrite_faulted hheld]

/-- Settles O24: the write feeds a one-byte string. -/
theorem ckDataByteAbsorbsOneByte : Obligations.CkDataByteAbsorbsOneByte := by
  refine ⟨fun b s => ⟨fun hnone => ?_, fun hheld => ?_⟩, fun data => ?_⟩
  · rw [exec_wrCkData8_eq_feed, feed_unfaulted hnone]
    rfl
  · rw [exec_wrCkData8_eq_feed, feed_faulted hheld]
  · rw [decodeWord_writeWord, decodeWrite_ckData8]

/-- Settles O25: the word's four bytes, fed one at a time, are the word fed at once. -/
theorem ckDataWordIsFourByteWrites : Obligations.CkDataWordIsFourByteWrites := by
  refine ⟨fun w s => ⟨_, _, _, _, exec_wrCkData8_eq_feed _ _, exec_wrCkData8_eq_feed _ _,
    exec_wrCkData8_eq_feed _ _, exec_wrCkData8_eq_feed _ _, ?_⟩, fun w => ?_⟩
  · rw [exec_wrCkData32_eq_feed, bytesOf_eq_ofNat, ← feed_append, ← feed_append, ← feed_append]
    rfl
  · rw [decodeWord_writeWord, decodeWrite_ckData32]

/-- Settles O26: the compared value is `Cksum()` as a number; a mismatch writes the record of R294. -/
theorem ckVerifyFaultsOnlyOnMismatch : Obligations.CkVerifyFaultsOnlyOnMismatch := by
  refine ⟨fun expect s => ⟨fun hnone hmatch => ?_, fun hnone hmismatch => ?_, fun hheld => ?_⟩, fun data => ?_⟩
  · rw [exec_wrCkVerify, execWrCkVerify, acceptWrite_unfaulted hnone, if_pos ((cksum_eq_iff s.ck expect).2 hmatch)]
  · rw [exec_wrCkVerify, execWrCkVerify, acceptWrite_unfaulted hnone,
      if_neg (mt (cksum_eq_iff s.ck expect).1 hmismatch)]
    rfl
  · rw [exec_wrCkVerify, execWrCkVerify, acceptWrite_faulted hheld]
  · rw [decodeWord_writeWord, decodeWrite_ckVerify]

end Sys2Proof.Checksum

/-! The block cipher of 41_cipher.md R179 to R189: each step has its inverse, so the cipher has one under every key. -/

namespace Sys2Proof.Aes

open Sys2Proof.Machine

/-! ## The field of 41_cipher.md R180: the product is commutative, associative and distributes over the sum -/

/-- Doubling shifts out the top bit and, where it was set, adds the reduction; both distribute over the sum. -/
theorem xtime_xor (a b : Byte) : xtime (a ^^^ b) = xtime a ^^^ xtime b := by
  have hreduce (p q : Bool) : (if p ^^ q then 0x1B#8 else 0#8) =
      (if p then 0x1B#8 else 0#8) ^^^ (if q then 0x1B#8 else 0#8) := by
    cases p <;> cases q <;> rfl
  simp only [xtime, BitVec.shiftLeft_xor_distrib, BitVec.getLsbD_xor, hreduce]
  ac_rfl

theorem xtimes_xor (a b : Byte) (i : Nat) : xtimes i (a ^^^ b) = xtimes i a ^^^ xtimes i b := by
  induction i with
  | zero => rfl
  | succ i ih => simp only [xtimes, ih, xtime_xor]

theorem xtimes_xtime (a : Byte) (i : Nat) : xtimes i (xtime a) = xtime (xtimes i a) := by
  induction i with
  | zero => rfl
  | succ i ih => simp only [xtimes, ih]

/-- The sum of R180 over the set bits of `b` below `n`. -/
def gmulBelow (n : Nat) (a b : Byte) : Byte :=
  (List.range n).foldl (fun acc i => if b.getLsbD i then acc ^^^ xtimes i a else acc) 0#8

theorem gmul_eq_gmulBelow (a b : Byte) : gmul a b = gmulBelow 8 a b := rfl

theorem gmulBelow_zero (a b : Byte) : gmulBelow 0 a b = 0#8 := rfl

theorem gmulBelow_succ (n : Nat) (a b : Byte) :
    gmulBelow (n + 1) a b = if b.getLsbD n then gmulBelow n a b ^^^ xtimes n a else gmulBelow n a b := by
  simp [gmulBelow, List.range_succ]

theorem gmulBelow_xor_left (n : Nat) (a b c : Byte) :
    gmulBelow n (a ^^^ b) c = gmulBelow n a c ^^^ gmulBelow n b c := by
  induction n with
  | zero => simp only [gmulBelow_zero, BitVec.xor_zero]
  | succ n ih =>
    simp only [gmulBelow_succ, ih, xtimes_xor]
    split
    · ac_rfl
    · rfl

theorem gmulBelow_xtime_left (n : Nat) (a c : Byte) : gmulBelow n (xtime a) c = xtime (gmulBelow n a c) := by
  induction n with
  | zero =>
    simp only [gmulBelow_zero]
    rfl
  | succ n ih =>
    simp only [gmulBelow_succ, ih, xtimes_xtime]
    split
    · rw [xtime_xor]
    · rfl

theorem gmul_xor_left (a b c : Byte) : gmul (a ^^^ b) c = gmul a c ^^^ gmul b c := gmulBelow_xor_left 8 a b c

theorem gmul_zero_left (c : Byte) : gmul 0#8 c = 0#8 := by
  simpa using gmul_xor_left 0#8 0#8 c

theorem gmul_xtime_left (a c : Byte) : gmul (xtime a) c = xtime (gmul a c) := gmulBelow_xtime_left 8 a c

theorem gmul_xtimes_left (a c : Byte) (i : Nat) : gmul (xtimes i a) c = xtimes i (gmul a c) := by
  induction i with
  | zero => rfl
  | succ i ih => simp only [xtimes, gmul_xtime_left, ih]

/-- A product of a sum is the sum of the products `xtimes i (gmul a c)` over the set bits `i` of `b`. -/
theorem gmul_gmulBelow (n : Nat) (a b c : Byte) : gmul (gmulBelow n a b) c = gmulBelow n (gmul a c) b := by
  induction n with
  | zero => exact gmul_zero_left c
  | succ n ih =>
    simp only [gmulBelow_succ]
    split
    · rw [gmul_xor_left, gmul_xtimes_left, ih]
    · exact ih

theorem gmul_right_comm (a b c : Byte) : gmul (gmul a b) c = gmul (gmul a c) b := gmul_gmulBelow 8 a b c

theorem gmul_one_left (b : Byte) : gmul 1#8 b = b := by
  revert b
  decide

theorem gmul_comm (a b : Byte) : gmul a b = gmul b a := by
  simpa only [gmul_one_left] using gmul_right_comm 1#8 a b

theorem gmul_assoc (a b c : Byte) : gmul a (gmul b c) = gmul (gmul a b) c := by
  rw [gmul_comm a, gmul_right_comm, gmul_comm b]

theorem gmul_xor_right (a b c : Byte) : gmul a (b ^^^ c) = gmul a b ^^^ gmul a c := by
  simp only [gmul_comm a, gmul_xor_left]

/-! ## Column products (41_cipher.md R186) -/

/-- The column product whose matrix has first row `c0 c1 c2 c3` and every next row the one before moved one place right. -/
def circulant (c0 c1 c2 c3 : Byte) (a : Word) : Word :=
  wordOfBytes (rowProduct c0 c1 c2 c3 a) (rowProduct c3 c0 c1 c2 a) (rowProduct c2 c3 c0 c1 a) (rowProduct c1 c2 c3 c0 a)

theorem mixColumn_eq_circulant (a : Word) : mixColumn a = circulant 2 3 1 1 a := rfl

theorem invMixColumn_eq_circulant (a : Word) : invMixColumn a = circulant 14 11 13 9 a := rfl

/-- A row after a circulant matrix is one row: the product of the row with the matrix. -/
theorem rowProduct_circulant (c0 c1 c2 c3 d0 d1 d2 d3 : Byte) (a : Word) :
    rowProduct c0 c1 c2 c3 (circulant d0 d1 d2 d3 a) =
      rowProduct (gmul c0 d0 ^^^ gmul c1 d3 ^^^ gmul c2 d2 ^^^ gmul c3 d1)
        (gmul c0 d1 ^^^ gmul c1 d0 ^^^ gmul c2 d3 ^^^ gmul c3 d2)
        (gmul c0 d2 ^^^ gmul c1 d1 ^^^ gmul c2 d0 ^^^ gmul c3 d3)
        (gmul c0 d3 ^^^ gmul c1 d2 ^^^ gmul c2 d1 ^^^ gmul c3 d0) a := by
  obtain ⟨h0, h1, h2, h3⟩ := byteOf_wordOfBytes (rowProduct d0 d1 d2 d3 a) (rowProduct d3 d0 d1 d2 a)
    (rowProduct d2 d3 d0 d1 a) (rowProduct d1 d2 d3 d0 a)
  rw [rowProduct, circulant, h0, h1, h2, h3]
  simp only [rowProduct, gmul_xor_left, gmul_xor_right, gmul_assoc]
  ac_rfl

/-- The matrix with first row `1 0 0 0` is the identity. -/
theorem circulant_one (a : Word) : circulant 1 0 0 0 a = a := by
  simpa [circulant, rowProduct, gmul_one_left, gmul_zero_left] using wordOfBytes_byteOf a

/-- A product of circulant matrices is circulant, so its first row is all of it. -/
theorem circulant_circulant (c0 c1 c2 c3 d0 d1 d2 d3 : Byte) (a : Word) :
    circulant c0 c1 c2 c3 (circulant d0 d1 d2 d3 a) =
      circulant (gmul c0 d0 ^^^ gmul c1 d3 ^^^ gmul c2 d2 ^^^ gmul c3 d1)
        (gmul c0 d1 ^^^ gmul c1 d0 ^^^ gmul c2 d3 ^^^ gmul c3 d2)
        (gmul c0 d2 ^^^ gmul c1 d1 ^^^ gmul c2 d0 ^^^ gmul c3 d3)
        (gmul c0 d3 ^^^ gmul c1 d2 ^^^ gmul c2 d1 ^^^ gmul c3 d0) a := by
  have hrow (e0 e1 e2 e3 : Byte) := rowProduct_circulant e0 e1 e2 e3 d0 d1 d2 d3 a
  generalize circulant d0 d1 d2 d3 a = b at hrow ⊢
  simp only [circulant, hrow]
  congr 1 <;> congr 1 <;> ac_rfl

/-- The first row of the product of the two matrices is `1 0 0 0`. -/
theorem invMixColumn_mixColumn (a : Word) : invMixColumn (mixColumn a) = a := by
  rw [mixColumn_eq_circulant, invMixColumn_eq_circulant, circulant_circulant]
  exact circulant_one a

theorem mixColumn_invMixColumn (a : Word) : mixColumn (invMixColumn a) = a := by
  rw [mixColumn_eq_circulant, invMixColumn_eq_circulant, circulant_circulant]
  exact circulant_one a

/-! ## The S-boxes (41_cipher.md R183, R184) -/

theorem invSbox_sbox (a : Byte) : invSbox (sbox a) = a := by
  revert a
  decide

theorem sbox_invSbox (a : Byte) : sbox (invSbox a) = a := by
  revert a
  decide

/-! ## The steps on the state (41_cipher.md R185 to R187) -/

theorem mapBytes_mapBytes {f g : Byte → Byte} (h : ∀ a, f (g a) = a) (w : Word) : mapBytes f (mapBytes g w) = w := by
  obtain ⟨h0, h1, h2, h3⟩ := byteOf_wordOfBytes (g (byteOf w 0)) (g (byteOf w 1)) (g (byteOf w 2)) (g (byteOf w 3))
  simp only [mapBytes, h0, h1, h2, h3, h, wordOfBytes_byteOf]

theorem mapColumns_mapColumns {f g : Word → Word} (h : ∀ w, f (g w) = w) (s : Block) :
    mapColumns f (mapColumns g s) = s := by
  simp only [mapColumns, h]

@[simp] theorem invSubBytes_subBytes (s : Block) : invSubBytes (subBytes s) = s :=
  mapColumns_mapColumns (mapBytes_mapBytes invSbox_sbox) s

@[simp] theorem subBytes_invSubBytes (s : Block) : subBytes (invSubBytes s) = s :=
  mapColumns_mapColumns (mapBytes_mapBytes sbox_invSbox) s

@[simp] theorem invMixColumns_mixColumns (s : Block) : invMixColumns (mixColumns s) = s :=
  mapColumns_mapColumns invMixColumn_mixColumn s

@[simp] theorem mixColumns_invMixColumns (s : Block) : mixColumns (invMixColumns s) = s :=
  mapColumns_mapColumns mixColumn_invMixColumn s

theorem diagonal_byteOf (c0 c1 c2 c3 : Word) :
    byteOf (diagonal c0 c1 c2 c3) 0 = byteOf c0 0 ∧ byteOf (diagonal c0 c1 c2 c3) 1 = byteOf c1 1 ∧
      byteOf (diagonal c0 c1 c2 c3) 2 = byteOf c2 2 ∧ byteOf (diagonal c0 c1 c2 c3) 3 = byteOf c3 3 :=
  byteOf_wordOfBytes _ _ _ _

/-- Rows moved apart and back: each row of `w` is taken from where it was moved to. -/
theorem diagonal_diagonal (w a1 a2 a3 b0 b2 b3 c0 c1 c3 d0 d1 d2 : Word) :
    diagonal (diagonal w a1 a2 a3) (diagonal b0 w b2 b3) (diagonal c0 c1 w c3) (diagonal d0 d1 d2 w) = w := by
  obtain ⟨h0, -, -, -⟩ := diagonal_byteOf w a1 a2 a3
  obtain ⟨-, h1, -, -⟩ := diagonal_byteOf b0 w b2 b3
  obtain ⟨-, -, h2, -⟩ := diagonal_byteOf c0 c1 w c3
  obtain ⟨-, -, -, h3⟩ := diagonal_byteOf d0 d1 d2 w
  rw [diagonal, h0, h1, h2, h3, wordOfBytes_byteOf]

@[simp] theorem invShiftRows_shiftRows (s : Block) : invShiftRows (shiftRows s) = s := by
  simp only [invShiftRows, shiftRows, diagonal_diagonal]

@[simp] theorem shiftRows_invShiftRows (s : Block) : shiftRows (invShiftRows s) = s := by
  simp only [invShiftRows, shiftRows, diagonal_diagonal]

@[simp] theorem addRoundKey_addRoundKey (w : List Word) (round : Nat) (s : Block) :
    addRoundKey w round (addRoundKey w round s) = s := blockXor_self_right s (roundKey w round)

/-! ## The cipher and its inverse (41_cipher.md R188, R189) -/

/-- The inverse rounds undo the rounds, seen between the two halves of a round: `ShiftRows` and `SubBytes` of a round are
undone at the start of the inverse round, `MixColumns` and `AddRoundKey` at its end. -/
theorem decRounds_encRounds (w : List Word) (r : Nat) (s : Block) :
    decRounds w r (shiftRows (subBytes (encRounds w r s))) = shiftRows (subBytes s) := by
  induction r with
  | zero => rfl
  | succ r ih => simp only [encRounds, decRounds, invShiftRows_shiftRows, invSubBytes_subBytes, addRoundKey_addRoundKey,
      invMixColumns_mixColumns, ih]

theorem encRounds_decRounds (w : List Word) (r : Nat) (s : Block) :
    encRounds w r (invSubBytes (invShiftRows (decRounds w r s))) = invSubBytes (invShiftRows s) := by
  induction r generalizing s with
  | zero => rfl
  | succ r ih => simp only [encRounds, decRounds, ih, subBytes_invSubBytes, shiftRows_invShiftRows,
      mixColumns_invMixColumns, addRoundKey_addRoundKey]

theorem aesDecrypt_aesEncrypt (key : List Word) (b : Block) : aesDecrypt key (aesEncrypt key b) = b := by
  simp only [aesDecrypt, aesEncrypt, addRoundKey_addRoundKey, decRounds_encRounds, invShiftRows_shiftRows,
    invSubBytes_subBytes]

theorem aesEncrypt_aesDecrypt (key : List Word) (b : Block) : aesEncrypt key (aesDecrypt key b) = b := by
  simp only [aesDecrypt, aesEncrypt, addRoundKey_addRoundKey, encRounds_decRounds, subBytes_invSubBytes,
    shiftRows_invShiftRows]

/-- Settles O41: AES under any key has its inverse, under the four key words of this hardware too. -/
theorem blockCipherIsAPermutation : Obligations.BlockCipherIsAPermutation :=
  fun k b => ⟨aesDecrypt_aesEncrypt (keyWords k) b, aesEncrypt_aesDecrypt (keyWords k) b⟩

end Sys2Proof.Aes

/-! The cipher unit's writes and commands of 41_cipher.md R161 to R174: what each decodes to, does, and leaves unchanged. -/

namespace Sys2Proof.Cipher

open Sys2Proof.Machine Sys2Proof.Encoding

/-! ## Register groups: the write map, and the bytes a word write changes (20_memory.md R72) -/

theorem ofNat_add_wordNo (base : Nat) (n : WordNo) : BitVec.ofNat 7 (base + n.val) = groupIdx (BitVec.ofNat 7 base) n :=
  BitVec.ofNat_add base n.val

theorem decodeWrite_key (n : WordNo) (w : Word) : decodeWrite (groupIdx Reg.key0 n) w = .wrKey n w := by
  fin_cases n <;> rfl

theorem decodeWrite_iv (n : WordNo) (w : Word) : decodeWrite (groupIdx Reg.iv0 n) w = .wrIv n w := by
  fin_cases n <;> rfl

theorem decodeWrite_din (n : WordNo) (w : Word) : decodeWrite (groupIdx Reg.din0 n) w = .wrDin n w := by
  fin_cases n <;> rfl

/-- `CMD` is not in a group that starts above it. -/
theorem groupIdx_ne_cmd {base : Idx} (hbase : base.toNat % 4 = 0) (hzero : base ≠ 0) (n : WordNo) :
    groupIdx base n ≠ Reg.cmd := by
  intro hcmd
  have hmask := groupIdx_and_7C hbase n
  rw [hcmd] at hmask
  exact hzero hmask.symm

/-- A word write gives bytes `4n` to `4n + 3` the bytes of the word, the lowest first, and keeps the others. -/
theorem blockByte_setBlockWord (b : Block) (n : WordNo) (w : Word) (i : Fin 16) :
    (blockByte (setBlockWord b n w) i).toNat =
      if i.val / 4 = n.val then w.toNat / 256 ^ (i.val % 4) % 256 else (blockByte b i).toNat := by
  have hword : Fin.ofNat 4 (i.val / 4) = n ↔ i.val / 4 = n.val := by
    rw [← Fin.val_inj, Fin.val_ofNat]
    omega
  simp only [blockByte, blockWord_setBlockWord, hword]
  split
  · rw [byteOf_toNat, Fin.val_ofNat, Nat.mod_mod]
  · rfl

/-! ## Fault records (60_exceptions.md R296) -/

/-- A faulting command leaves its opcode in the record. -/
theorem raiseFault_command (code : FaultCode) (op : Byte) (s : State) :
    raiseFault code Reg.cmd (commandData op) s = s.recorded code.toBits 0x03 op := by
  have hop : (commandData op).setWidth 8 = op := setWidth_setWidth_of_lt (op.isLt.trans (by decide))
  rw [raiseFault, if_pos rfl, hop]
  rfl

/-- A faulting write to another register leaves no opcode. -/
theorem raiseFault_register {idx : Idx} (h : idx ≠ Reg.cmd) (code : FaultCode) (data : Word) (s : State) :
    raiseFault code idx data s = s.recorded code.toBits idx 0 := by
  rw [raiseFault, if_neg h]
  rfl

/-! ## Writes and commands of one sequencer state (41_cipher.md R160) -/

section Guarded

variable {s : State} (hnone : s.err.ecode = 0) (op : Byte) (f : State → State)

include hnone

theorem idleWrite_idle (hidle : s.cipher.cst = .idle) (idx : Idx) (data : Word) :
    acceptWrite s (fun s => whenIdle idx data s f) = f s := by
  rw [acceptWrite_unfaulted hnone, whenIdle_idle hidle]

theorem idleWrite_run (hrun : s.cipher.cst = .run) {idx : Idx} (hidx : idx ≠ Reg.cmd) (data : Word) :
    acceptWrite s (fun s => whenIdle idx data s f) = s.recorded 5 idx 0 := by
  rw [acceptWrite_unfaulted hnone, whenIdle_run hrun, raiseFault_register hidx]
  rfl

theorem idleCommand_run (hrun : s.cipher.cst = .run) :
    acceptWrite s (fun s => whenIdle Reg.cmd (commandData op) s f) = s.recorded 5 0x03 op := by
  rw [acceptWrite_unfaulted hnone, whenIdle_run hrun, raiseFault_command]
  rfl

theorem runCommand_run (hrun : s.cipher.cst = .run) : acceptWrite s (fun s => whenRunning op s f) = f s := by
  rw [acceptWrite_unfaulted hnone, whenRunning_run hrun]

theorem runCommand_idle (hidle : s.cipher.cst = .idle) :
    acceptWrite s (fun s => whenRunning op s f) = s.recorded 5 0x03 op := by
  rw [acceptWrite_unfaulted hnone, whenRunning_idle hidle, raiseFault_command]
  rfl

end Guarded

/-! ## The checks of the message commands on numbers (41_cipher.md R166, R168) -/

theorem masksValid_iff (c : CipherUnit) :
    (keyValid c && ivValid c) = true ↔ c.kmask.toNat = 15 ∧ c.imask.toNat = 15 := by
  rw [Bool.and_eq_true, keyValid_iff, ivValid_iff, ← BitVec.toNat_inj, ← BitVec.toNat_inj]
  rfl

theorem length_mod_sixteen_iff (v : Half) : v % 16 = 0 ↔ v.toNat % 16 = 0 := by
  rw [← BitVec.toNat_inj, BitVec.toNat_umod]
  rfl

theorem length_sub_sixteen {v : Half} (h : 16 ≤ v.toNat) : v - 16 = BitVec.ofNat 16 (v.toNat - 16) := by
  rw [← BitVec.ofNat_sub_ofNat_of_le _ _ (by decide) h, BitVec.ofNat_toNat, BitVec.setWidth_eq]
  rfl

/-! ## Configuration (41_cipher.md R161 to R165) -/

/-- Settles O29: the bytes and the mask bit are those of `writeKey`, and the write is one of `IDLE`. -/
theorem keyWordWrite : Obligations.KeyWordWrite := by
  intro n w s
  rw [ofNat_add_wordNo, decodeWord_writeWord]
  refine ⟨decodeWrite_key n w, fun hnone hidle => ⟨s.cipher.writeKey n w, ?_, rfl,
    blockByte_setBlockWord s.cipher.key n w, setMaskBit_getLsbD s.cipher.kmask n⟩, fun hnone hrun => ?_, fun hheld => ?_⟩
  · rw [exec_wrKey, execWrKey, idleWrite_idle hnone _ hidle]
    rfl
  · rw [exec_wrKey, execWrKey, idleWrite_run hnone _ hrun (groupIdx_ne_cmd rfl (by decide) n)]
    rfl
  · rw [exec_wrKey, execWrKey, acceptWrite_faulted hheld]

/-- Settles O30: the same for `writeIv`. -/
theorem ivWordWrite : Obligations.IvWordWrite := by
  intro n w s
  rw [ofNat_add_wordNo, decodeWord_writeWord]
  refine ⟨decodeWrite_iv n w, fun hnone hidle => ⟨s.cipher.writeIv n w, ?_, rfl,
    blockByte_setBlockWord s.cipher.iv n w, setMaskBit_getLsbD s.cipher.imask n⟩, fun hnone hrun => ?_, fun hheld => ?_⟩
  · rw [exec_wrIv, execWrIv, idleWrite_idle hnone _ hidle]
    rfl
  · rw [exec_wrIv, execWrIv, idleWrite_run hnone _ hrun (groupIdx_ne_cmd rfl (by decide) n)]
    rfl
  · rw [exec_wrIv, execWrIv, acceptWrite_faulted hheld]

/-- Settles O31: the write asks for no sequencer state. -/
theorem dinWordWrite : Obligations.DinWordWrite := by
  intro n w s
  rw [ofNat_add_wordNo, decodeWord_writeWord]
  refine ⟨decodeWrite_din n w, fun hnone => ⟨s.cipher.writeDin n w, ?_, rfl,
    blockByte_setBlockWord s.cipher.din n w⟩, fun hheld => ?_⟩
  · rw [exec_wrDin, execWrDin, acceptWrite_unfaulted hnone]
    rfl
  · rw [exec_wrDin, execWrDin, acceptWrite_faulted hheld]

/-- Settles O32: the command is one of `IDLE`. -/
theorem keyClearDestroysTheKey : Obligations.KeyClearDestroysTheKey := by
  refine ⟨by decide, fun s => ⟨fun hnone hidle => ?_, fun hnone hrun => ?_, fun hheld => ?_⟩⟩
  · rw [exec_keyClear, execKeyClear, idleWrite_idle hnone _ hidle]
    rfl
  · rw [exec_keyClear, execKeyClear, idleCommand_run hnone _ _ hrun]
    rfl
  · rw [exec_keyClear, execKeyClear, acceptWrite_faulted hheld]

/-! ## Message commands (41_cipher.md R166 to R174) -/

/-- What `C_START` does once the sequencer is known to be in `IDLE`. -/
theorem exec_cStart_of_idle {s : State} (hnone : s.err.ecode = 0) (hidle : s.cipher.cst = .idle) :
    exec .cStart s = .next (
      if s.cipher.kmask.toNat = 15 ∧ s.cipher.imask.toNat = 15 then
        if s.cipher.len.toNat % 16 = 0 then s.ciphered s.cipher.openMessage else s.recorded 3 0x03 0x10
      else s.recorded 2 0x03 0x10) := by
  rw [exec_cStart, execCStart, idleWrite_idle hnone _ hidle]
  simp only [Bool.not_eq_true', ← Bool.not_eq_true, masksValid_iff, length_mod_sixteen_iff, ne_eq, ite_not,
    raiseFault_command]
  rfl

/-- Settles O35: the sequencer is checked first, then the masks, then the length. -/
theorem cStartChecksThenOpensTheMessage : Obligations.CStartChecksThenOpensTheMessage := by
  refine ⟨by decide, fun s => ⟨fun hnone hidle hkey hiv hlen => ?_, fun hnone hrun => ?_, fun hnone hidle hmask => ?_,
    fun hnone hidle hkey hiv hlen => ?_, fun hheld => ?_⟩⟩
  · rw [exec_cStart_of_idle hnone hidle, if_pos ⟨hkey, hiv⟩, if_pos hlen]
    rfl
  · rw [exec_cStart, execCStart, idleCommand_run hnone _ _ hrun]
    rfl
  · rw [exec_cStart_of_idle hnone hidle, if_neg (not_and_or.2 hmask)]
  · rw [exec_cStart_of_idle hnone hidle, if_pos ⟨hkey, hiv⟩, if_neg hlen]
  · rw [exec_cStart, execCStart, acceptWrite_faulted hheld]

/-- What `C_BLOCK` does with a block left: one block processed and tapped, seen from the state before it. -/
theorem exec_cBlock_of_run {s : State} (hnone : s.err.ecode = 0) (hrun : s.cipher.cst = .run)
    (hrem : 16 ≤ s.cipher.rem.toNat) :
    exec .cBlock s = .next
      { s with
        cipher :=
          { s.cipher with
            dout := s.cipher.blockResult, cv := s.cipher.nextChain, rem := BitVec.ofNat 16 (s.cipher.rem.toNat - 16) },
        ck := if s.cipher.tap then (blockBytes s.cipher.plaintext).foldl absorb s.ck else s.ck } := by
  have hleft : ¬ s.cipher.rem < 16 := Nat.not_lt.2 hrem
  rw [exec_cBlock, execCBlock, runCommand_run hnone _ _ hrun, if_neg hleft, ← length_sub_sixteen hrem]
  rfl

/-- Settles O36: the two directions are the two readings of the block result, the next chaining value and the plaintext. -/
theorem cBlockProcessesOneBlock : Obligations.CBlockProcessesOneBlock := by
  refine ⟨by decide, fun s => ⟨fun hnone hrun hrem hdir => ?_, fun hnone hrun hrem hdir => ?_, fun hnone hidle => ?_,
    fun hnone hrun hrem => ?_, fun hheld => ?_⟩⟩
  · obtain ⟨hresult, hchain, hplain⟩ := CipherUnit.encrypt_block hdir
    rw [exec_cBlock_of_run hnone hrun hrem, hresult, hchain, hplain]
  · obtain ⟨hresult, hchain, hplain⟩ := CipherUnit.decrypt_block hdir
    rw [exec_cBlock_of_run hnone hrun hrem, hresult, hchain, hplain]
  · rw [exec_cBlock, execCBlock, runCommand_idle hnone _ _ hidle]
    rfl
  · have hshort : s.cipher.rem < 16 := hrem
    rw [exec_cBlock, execCBlock, runCommand_run hnone _ _ hrun, if_pos hshort, raiseFault_command]
    rfl
  · rw [exec_cBlock, execCBlock, acceptWrite_faulted hheld]

/-- Settles O37: the length check follows the sequencer's. -/
theorem cFinishClosesACompleteMessage : Obligations.CFinishClosesACompleteMessage := by
  refine ⟨by decide, fun s => ⟨fun hnone hrun hrem => ?_, fun hnone hidle => ?_, fun hnone hrun hrem => ?_,
    fun hheld => ?_⟩⟩
  · have hcomplete : s.cipher.rem = 0 := BitVec.eq_of_toNat_eq hrem
    rw [exec_cFinish, execCFinish, runCommand_run hnone _ _ hrun, if_neg (not_not.2 hcomplete)]
    rfl
  · rw [exec_cFinish, execCFinish, runCommand_idle hnone _ _ hidle]
    rfl
  · have hleft : s.cipher.rem ≠ 0 := fun hzero => hrem (congrArg BitVec.toNat hzero)
    rw [exec_cFinish, execCFinish, runCommand_run hnone _ _ hrun, if_pos hleft, raiseFault_command]
    rfl
  · rw [exec_cFinish, execCFinish, acceptWrite_faulted hheld]

theorem ciphered_leaveMessage_of_idle {s : State} (hidle : s.cipher.cst = .idle) :
    s.ciphered s.cipher.leaveMessage = s := by
  rw [CipherUnit.leaveMessage, ← hidle]
  rfl

theorem exec_cAbort_of_unfaulted {s : State} (hnone : s.err.ecode = 0) :
    exec .cAbort s = .next (s.ciphered s.cipher.leaveMessage) := by
  rw [exec_cAbort, execCAbort, acceptWrite_unfaulted hnone]
  rfl

/-- Settles O38: the effect is the same in both sequencer states, and in `IDLE` it is none. -/
theorem cAbortLeavesTheMessage : Obligations.CAbortLeavesTheMessage := by
  refine ⟨by decide, fun s => ⟨exec_cAbort_of_unfaulted, fun hnone hidle => ?_, fun hheld => ?_⟩⟩
  · rw [exec_cAbort_of_unfaulted hnone, ciphered_leaveMessage_of_idle hidle]
  · rw [exec_cAbort, execCAbort, acceptWrite_faulted hheld]

end Sys2Proof.Cipher

/-! The system's writes and commands of 42_system.md R230 to R235: what each decodes to, does, and leaves unchanged. -/

namespace Sys2Proof.Control

open Sys2Proof.Machine Sys2Proof.Encoding Sys2Proof.Cipher

/-! ## The write map's rows of the configuration registers (30_encoding.md R105) -/

/-- The four accepted words are the ones without reserved bits; each carries its direction in bit 0 and its tap in bit 3. -/
theorem decodeWrite_ctrl (data : Word) : decodeWrite 0x02 data =
    if data.toNat = 0x0 then .wrCtrl .encrypt false else if data.toNat = 0x1 then .wrCtrl .decrypt false
    else if data.toNat = 0x8 then .wrCtrl .encrypt true else if data.toNat = 0x9 then .wrCtrl .decrypt true
    else .wrIllegal 0x02 data := by
  by_cases hlegal : data.toNat ∈ [0x0, 0x1, 0x8, 0x9]
  · rcases ctrlWord_cases hlegal with rfl | rfl | rfl | rfl <;> rfl
  · have hreserved : data &&& 0xFFFFFFF6 ≠ 0 := mt (ctrlReserved_zero_iff data).1 hlegal
    simp only [List.mem_cons, List.not_mem_nil, or_false, not_or] at hlegal
    obtain ⟨h0, h1, h8, h9⟩ := hlegal
    rw [if_neg h0, if_neg h1, if_neg h8, if_neg h9]
    exact if_neg hreserved

theorem decodeWrite_len (data : Word) : decodeWrite 0x05 data =
    if data.toNat < 2 ^ 16 then .wrLen (BitVec.ofNat 16 data.toNat) else .wrIllegal 0x05 data := by
  simp only [← high16_zero_iff]
  rfl

/-! ## A write without effect (42_system.md R230) -/

/-- Performed or ignored, a write that does nothing leaves the state as it is. -/
theorem acceptWrite_id (s : State) : acceptWrite s (fun s => s) = s := by
  obtain ⟨-, hignored⟩ | ⟨-, hperformed⟩ := acceptWrite_cases s fun s => s
  · exact hignored
  · exact hperformed

/-! ## The statements -/

/-- Settles O33: the write is one of `IDLE`, and its data is illegal exactly when a reserved bit is set. -/
theorem ctrlWriteSetsDirectionAndTap : Obligations.CtrlWriteSetsDirectionAndTap := by
  refine ⟨fun dir tap s => ⟨fun hnone hidle => ?_, fun hnone hrun => ?_, fun hheld => ?_⟩, fun data => ?_⟩
  · rw [exec_wrCtrl, execWrCtrl, idleWrite_idle hnone _ hidle]
    rfl
  · rw [exec_wrCtrl, execWrCtrl, idleWrite_run hnone _ hrun (by decide)]
    rfl
  · rw [exec_wrCtrl, execWrCtrl, acceptWrite_faulted hheld]
  · rw [decodeWord_writeWord, decodeWrite_ctrl]

/-- Settles O34: the write is one of `IDLE`, and its data is illegal exactly when it is wider than the register. -/
theorem lenWriteStoresTheLength : Obligations.LenWriteStoresTheLength := by
  refine ⟨fun len s => ⟨fun hnone hidle => ?_, fun hnone hrun => ?_, fun hheld => ?_⟩, fun data => ?_⟩
  · rw [exec_wrLen, execWrLen, idleWrite_idle hnone _ hidle]
    rfl
  · rw [exec_wrLen, execWrLen, idleWrite_run hnone _ hrun (by decide)]
    rfl
  · rw [exec_wrLen, execWrLen, acceptWrite_faulted hheld]
  · rw [decodeWord_writeWord, decodeWrite_len]

/-- Settles O48: `NOP` does nothing whether it is accepted or not, and `EACK` is not gated by the record it clears. -/
theorem nopAndEackEffects : Obligations.NopAndEackEffects := by
  refine ⟨⟨by decide, fun s => ?_⟩, by decide, fun s => ?_⟩
  · rw [exec_nop, execNop, acceptWrite_id]
  · rw [exec_eack, execEack, ackFault]
    rfl

end Sys2Proof.Control

/-! The decoder and the encoder of 30_encoding.md undo each other, and the decoder answers only operations that are well
formed. -/

namespace Sys2Proof.RoundTrip

open Sys2Proof.Machine Sys2Proof.Laws Sys2Proof.Encoding Sys2Proof.Checksum Sys2Proof.Cipher Sys2Proof.Control

/-! ## The fallback operations (30_encoding.md R107, R108) -/

theorem ctrlData_legal_iff {v : Nat} : v / 16 = 0 ∧ v / 2 % 4 = 0 ↔ v ∈ [0x0, 0x1, 0x8, 0x9] := by
  simp only [List.mem_cons, List.not_mem_nil, or_false]
  omega

/-- The check of `wrIllegal` is the six cases of R107. -/
theorem illegalWrite_iff (idx : Idx) (data : Word) : illegalWrite idx data = true ↔
    (idx.toNat ∈ [0x00, 0x01, 0x04, 0x06, 0x0A, 0x0C] ∨ (0x20 ≤ idx.toNat ∧ idx.toNat ≤ 0x27)) ∨
    (idx.toNat = 0x07 ∨ (0x0D ≤ idx.toNat ∧ idx.toNat ≤ 0x0F) ∨ (0x14 ≤ idx.toNat ∧ idx.toNat ≤ 0x17) ∨
      0x28 ≤ idx.toNat) ∨
    (idx.toNat = 0x02 ∧ data.toNat ∉ [0x0, 0x1, 0x8, 0x9]) ∨
    ((idx.toNat = 0x05 ∨ idx.toNat = 0x0B) ∧ 2 ^ 16 ≤ data.toNat) ∨
    (idx.toNat = 0x08 ∧ 2 ^ 8 ≤ data.toNat) ∨
    (idx.toNat = 0x03 ∧ data.toNat ∉ [0x00, 0x01, 0x10, 0x11, 0x12, 0x13, 0x20, 0x7E, 0x7F]) := by
  rw [← ctrlData_legal_iff]
  simp only [illegalWrite, readOnlyIdx, reservedIdx, reservedBitsSet, undefinedCommand, Bool.or_eq_true,
    Bool.and_eq_true, Bool.not_eq_true', ← Bool.not_eq_true, List.contains_iff_mem, decide_eq_true_eq, beq_iff_eq,
    Nat.div_eq_zero_iff, OfNat.ofNat_ne_zero, false_or, Nat.not_lt, Nat.reducePow, or_assoc]

theorem decodeWrite_illegal_iff (idx : Idx) (data : Word) :
    decodeWrite idx data = .wrIllegal idx data ↔ illegalWrite idx data = true := by
  rw [decodeWrite_eq_wrIllegal_iff, illegalWrite_iff]

theorem decodeRead_zero_iff (idx : Idx) : decodeRead idx = .rdZero idx ↔ readableIdx idx = false := by
  revert idx
  decide

/-! ## Decoding an encoded operation (30_encoding.md sections 1 to 5) -/

/-- An operand narrower than the data word is read back from its zero extension. -/
theorem setWidth_of_zeroExtended {k : Nat} (hk : k ≤ 32) (x : BitVec k) : (x.setWidth 32).setWidth k = x := by
  rw [BitVec.setWidth_setWidth_of_le x hk, BitVec.setWidth_eq]

theorem decodeWrite_len_operand (v : Half) : decodeWrite Reg.len (v.setWidth 32) = .wrLen v :=
  (if_pos ((high16_zero_iff _).2 (setWidth_lt v))).trans (congrArg Instr.wrLen (setWidth_of_zeroExtended (by decide) v))

theorem decodeWrite_ckVerify_operand (v : Half) : decodeWrite Reg.ckVerify (v.setWidth 32) = .wrCkVerify v :=
  (if_pos ((high16_zero_iff _).2 (setWidth_lt v))).trans
    (congrArg Instr.wrCkVerify (setWidth_of_zeroExtended (by decide) v))

theorem decodeWrite_ckData8_operand (b : Byte) : decodeWrite Reg.ckData8 (b.setWidth 32) = .wrCkData8 b :=
  (if_pos ((high24_zero_iff _).2 (setWidth_lt b))).trans
    (congrArg Instr.wrCkData8 (setWidth_of_zeroExtended (by decide) b))

theorem decodeWrite_ctrl_operands (dir : Direction) (tap : Bool) :
    decodeWrite Reg.ctrl (ctrlData dir tap) = .wrCtrl dir tap := by
  cases dir <;> cases tap <;> rfl

/-- A well-formed operation is the one its transaction word stands for. -/
theorem decodeWord_encodeWord {i : Instr} (h : i.wellFormed = true) : decodeWord (encodeWord i) = i := by
  cases i with
  | rdId | rdStatus | rdCtrl | rdErr | rdLen | rdRem | rdCksum | rdCkAcc => rfl
  | nop | ckInit | cStart | cBlock | cFinish | cAbort | keyClear | eack | srst => rfl
  | rdIv n | rdDin n | rdDout n | rdCv n => fin_cases n <;> rfl
  | wrKey n w => rw [encodeWord, decodeWord_writeWord, decodeWrite_key]
  | wrIv n w => rw [encodeWord, decodeWord_writeWord, decodeWrite_iv]
  | wrDin n w => rw [encodeWord, decodeWord_writeWord, decodeWrite_din]
  | wrCtrl dir tap => rw [encodeWord, decodeWord_writeWord, decodeWrite_ctrl_operands]
  | wrLen v => rw [encodeWord, decodeWord_writeWord, decodeWrite_len_operand]
  | wrCkData8 b => rw [encodeWord, decodeWord_writeWord, decodeWrite_ckData8_operand]
  | wrCkData32 w => rw [encodeWord, decodeWord_writeWord, Reg.ckData32, decodeWrite_ckData32]
  | wrCkVerify v => rw [encodeWord, decodeWord_writeWord, decodeWrite_ckVerify_operand]
  | rdZero idx =>
    rw [encodeWord, decodeWord_readWord, decodeRead_zero_iff]
    simpa [Instr.wellFormed] using h
  | wrIllegal idx data =>
    rw [encodeWord, decodeWord_writeWord, decodeWrite_illegal_iff]
    exact h

/-- Settles O1: the stored bytes are read back as the word, and the word as the operation. -/
theorem decodeUndoesEncode : Obligations.DecodeUndoesEncode := by
  intro i rest hwf
  rw [encode, decode_bytesOfWord, decodeWord_encodeWord hwf]

/-! ## Encoding a decoded word -/

/-- A write's word is the packing of its fields. -/
theorem encodeWord_decodeWord_of_write {t : TWord} (h : weOf t = true) : encodeWord (decodeWord t) = t := by
  rw [decodeWord, if_pos h, encodeWord_eq, transactionOf_decodeWrite, ← h, packWord_fields]

/-- Of a read's word only the index is kept (30_encoding.md R101). -/
theorem encodeWord_decodeWord_of_read {t : TWord} (h : weOf t = false) :
    encodeWord (decodeWord t) = readWord (idxOf t) := by
  rw [decodeWord, if_neg (Bool.eq_false_iff.1 h), encodeWord_eq, transactionOf_decodeRead, readWord]

theorem and_indexMask_of_read {t : TWord} (h : weOf t = false) : t &&& 0xFF00000000#40 = readWord (idxOf t) :=
  (and_eq_packWord_iff t false 0x7F (idxOf t) 0 0).2 ⟨h, and_7F _, BitVec.and_zero⟩

/-- Settles O2: by the write bit. -/
theorem encodeUndoesDecode : Obligations.EncodeUndoesDecode := by
  intro t
  cases h : t.getLsbD 39
  · rw [encodeWord_decodeWord_of_read h, ← and_indexMask_of_read h]
    rfl
  · rw [encodeWord_decodeWord_of_write h]
    rfl

/-! ## What is decoded is well formed -/

theorem decodeWord_of_read {t : TWord} (h : weOf t = false) : decodeWord t = decodeRead (idxOf t) := by
  rw [decodeWord, if_neg (Bool.eq_false_iff.1 h)]

theorem decodeWord_of_write {t : TWord} (h : weOf t = true) : decodeWord t = decodeWrite (idxOf t) (dataOf t) := by
  rw [decodeWord, if_pos h]

/-- Settles O3: a fallback is answered with the index and data of the word, so by the branch that tested for it. -/
theorem decodedOperationsAreWellFormed : Obligations.DecodedOperationsAreWellFormed := by
  intro t
  cases hi : decodeWord t <;> obtain ⟨hwe, hidx, hdata⟩ := fields_of_decodeWord hi
  case rdZero idx =>
    dsimp only [transactionOf] at hwe hidx
    rw [decodeWord_of_read hwe, hidx, decodeRead_zero_iff] at hi
    rw [Instr.wellFormed, hi, Bool.not_false]
  case wrIllegal idx data =>
    dsimp only [transactionOf] at hwe hidx hdata
    rw [decodeWord_of_write hwe, hidx, hdata rfl, decodeWrite_illegal_iff] at hi
    exact hi
  all_goals rfl

/-- Settles O6: six closed words. -/
theorem sampleWordsDecode : Obligations.SampleWordsDecode := by
  unfold Obligations.SampleWordsDecode
  decide

end Sys2Proof.RoundTrip

/-! Reads: every index returns its register of the map of 10_state.md R45, field by field, and changes nothing of the
block (42_system.md R221 to R229). -/

namespace Sys2Proof.Reads

open Sys2Proof.Machine Sys2Proof.Encoding Sys2Proof.Checksum Sys2Proof.Cipher Sys2Proof.RoundTrip

/-! ## The register map (42_system.md R221) -/

theorem memRead_of_unreadable {idx : Idx} (h : readableIdx idx = false) (s : State) : memRead idx s = 0 := by
  fun_cases memRead idx s
  case case25 => rfl
  all_goals
    next hidx => simp [readableIdx, hidx] at h

/-- The operation that an index selects returns what the map has at that index. -/
theorem exec_decodeRead (idx : Idx) (s : State) : exec (decodeRead idx) s = .next (returnRead (memRead idx s) s) := by
  fun_cases decodeRead idx
  case case1 h | case2 h | case3 h | case4 h | case5 h | case6 h | case7 h | case8 h => rw [h]; rfl
  case case9 hgroup | case10 hgroup | case11 hgroup | case12 hgroup =>
    rw [← groupIdx_wordNoOf hgroup]
    generalize wordNoOf idx = n
    fin_cases n <;> rfl
  case case13 =>
    have hzero : decodeRead idx = .rdZero idx := by simp [decodeRead, *]
    rw [memRead_of_unreadable ((decodeRead_zero_iff idx).1 hzero)]
    rfl

/-- A read appends the register of its index to the read data and is otherwise only taken off the queue. -/
theorem step_of_read {s : State} {t : TWord} {rest : List HostEvent}
    (hpending : s.port.pending = .transaction t :: rest) (hread : weOf t = false) :
    step s = .next { s with port := { pending := rest, rdata := s.port.rdata ++ [memRead (idxOf t) s] } } := by
  rw [step_transaction hpending, decodeWord_of_read hread, exec_decodeRead]
  rfl

/-- Settles O14: the map is read in the state with the transaction taken off, which the map does not see. -/
theorem readsReturnTheRegisterMap : Obligations.ReadsReturnTheRegisterMap :=
  fun _ _ _ hpending hread => step_of_read hpending hread

/-- What the map holds after reset (70_reset_and_hazards.md R331). -/
theorem memRead_reset (idx : Idx) : memRead idx State.reset =
    if idx.toNat = 0x00 then 0x464C3136 else if idx.toNat = 0x0A then 0x0000FFFF
    else if idx.toNat = 0x0C then 0x00FF00FF else 0 := by
  revert idx
  decide

/-- Settles O13: the register map of the reset state, through a read. -/
theorem resetReadValues : Obligations.ResetReadValues := by
  intro t hread
  refine ⟨_, step_of_read (s := State.reset.issue [t]) rfl hread, ?_⟩
  rw [← memRead_reset]
  rfl

/-! ## What single indices decode to (30_encoding.md R104, R108) -/

theorem decodeWord_packRead (idx : Idx) (data : Word) : decodeWord (packWord false idx data) = decodeRead idx := by
  rw [decodeWord_of_read (weOf_packWord ..), idxOf_packWord]

theorem unreadable_of_ranges {idx : Idx} (h : idx.toNat ∈ [0x03, 0x07, 0x08, 0x09, 0x0B] ∨
    (0x0D ≤ idx.toNat ∧ idx.toNat ≤ 0x17) ∨ 0x28 ≤ idx.toNat) : readableIdx idx = false := by
  revert idx
  decide

/-- Settles O8: the listed indices are those of no other read. -/
theorem unreadableIndicesReadZero : Obligations.UnreadableIndicesReadZero := by
  refine ⟨fun t hread hidx => ?_, fun _ _ => rfl⟩
  rw [decodeWord_of_read hread, decodeRead_zero_iff]
  exact unreadable_of_ranges hidx

theorem decodeRead_iv (n : WordNo) : decodeRead (groupIdx Reg.iv0 n) = .rdIv n := by fin_cases n <;> rfl

theorem decodeRead_din (n : WordNo) : decodeRead (groupIdx Reg.din0 n) = .rdDin n := by fin_cases n <;> rfl

theorem decodeRead_dout (n : WordNo) : decodeRead (groupIdx Reg.dout0 n) = .rdDout n := by fin_cases n <;> rfl

theorem decodeRead_cv (n : WordNo) : decodeRead (groupIdx Reg.cv0 n) = .rdCv n := by fin_cases n <;> rfl

/-! ## The packed registers as numbers (42_system.md R223 to R228) -/

/-- Fields side by side are digits. -/
theorem toNat_append_eq_add {v w : Nat} (x : BitVec v) (y : BitVec w) : (x ++ y).toNat = 2 ^ w * x.toNat + y.toNat := by
  rw [BitVec.toNat_append, ← Nat.shiftLeft_add_eq_or_of_lt y.isLt, Nat.shiftLeft_eq, Nat.mul_comm]

theorem toNat_ofBool_eq_ite (b : Bool) : (BitVec.ofBool b).toNat = if b then 1 else 0 := by
  cases b <;> rfl

theorem errView_toNat (e : FaultRecord) :
    (errView e).toNat = e.ecode.toNat + 2 ^ 8 * e.eidx.toNat + 2 ^ 16 * e.eop.toNat := by
  simp only [errView, BitVec.toNat_setWidth_of_le (by decide : 8 + 1 + 7 + 5 + 3 ≤ 32), toNat_append_eq_add,
    BitVec.toNat_ofNat]
  omega

theorem ctrlView_toNat (c : CipherUnit) : (ctrlView c).toNat =
    (if c.dir = .decrypt then 1 else 0) + 2 * c.mode.toNat + 8 * (if c.tap then 1 else 0) := by
  have hdir : c.dir.toBit = true ↔ c.dir = .decrypt := by cases c.dir <;> decide
  simp only [ctrlView, BitVec.toNat_setWidth_of_le (by decide : 1 + 2 + 1 ≤ 32), toNat_append_eq_add,
    toNat_ofBool_eq_ite, hdir]
  omega

theorem statusView_toNat (k : CkUnit) (c : CipherUnit) (e : FaultRecord) : (statusView k c e).toNat =
    (if c.cst = .run then 1 else 0) + 2 * (if c.kmask.toNat = 15 then 1 else 0) +
      4 * (if c.imask.toNat = 15 then 1 else 0) + 8 * (if c.done then 1 else 0) +
      16 * (if e.ecode.toNat ≠ 0 then 1 else 0) + 256 * k.cnt.toNat := by
  have hkey : keyValid c = true ↔ c.kmask.toNat = 15 := by rw [keyValid_iff, ← BitVec.toNat_inj]; rfl
  have hiv : ivValid c = true ↔ c.imask.toNat = 15 := by rw [ivValid_iff, ← BitVec.toNat_inj]; rfl
  have hfault : faulted e = true ↔ e.ecode.toNat ≠ 0 := by rw [faulted_iff, Ne, ← BitVec.toNat_inj]; rfl
  simp only [statusView, BitVec.toNat_setWidth_of_le (by decide : 5 + 3 + 1 + 1 + 1 + 1 + 1 ≤ 32), toNat_append_eq_add,
    toNat_ofBool_eq_ite, running_iff, hkey, hiv, hfault, BitVec.toNat_ofNat]
  omega

/-- Settles O15: the flags are the digits of the view. -/
theorem statusReadsTheFlags : Obligations.StatusReadsTheFlags :=
  ⟨fun data => decodeWord_packRead 0x01 data, fun s => ⟨statusView s.ck s.cipher s.err, rfl, statusView_toNat ..⟩⟩

/-- Settles O16: the views of the packed registers, and the plain values of `LEN` and `REM`. -/
theorem systemRegistersReadTheirFields : Obligations.SystemRegistersReadTheirFields := by
  refine ⟨fun data => ⟨decodeWord_packRead 0x00 data, decodeWord_packRead 0x02 data, decodeWord_packRead 0x04 data,
    decodeWord_packRead 0x05 data, decodeWord_packRead 0x06 data⟩, fun s => ⟨rfl, ?_, ?_, ?_, ?_⟩⟩
  · exact ⟨ctrlView s.cipher, rfl, ctrlView_toNat _⟩
  · exact ⟨errView s.err, rfl, errView_toNat _⟩
  · exact ⟨s.cipher.len.setWidth 32, rfl, BitVec.toNat_setWidth_of_le (by decide)⟩
  · exact ⟨s.cipher.rem.setWidth 32, rfl, BitVec.toNat_setWidth_of_le (by decide)⟩

/-! ## The accumulators (40_checksum.md R142, R143) -/

/-- Settles O17: the accumulators side by side, and the checksum as a number. -/
theorem checksumRegistersReadTheAccumulators : Obligations.ChecksumRegistersReadTheAccumulators := by
  refine ⟨fun data => ⟨decodeWord_packRead 0x0C data, decodeWord_packRead 0x0A data⟩, fun s => ⟨?_, ?_⟩⟩
  · exact ⟨accView s.ck, rfl, toNat_append_eq_add s.ck.s2 s.ck.s1⟩
  · exact ⟨(cksum s.ck).setWidth 32, rfl, (BitVec.toNat_setWidth_of_le (by decide)).trans (cksum_toNat s.ck)⟩

/-! ## The data registers (41_cipher.md R164, R176 to R178) -/

/-- Word `n` of a byte string holds bytes `4n` to `4n + 3`, the first lowest. -/
theorem blockWord_bytes (b : Block) (n : WordNo) (j : Fin 4) :
    (blockWord b n).toNat / 256 ^ j.val % 256 = (blockByte b (Fin.ofNat 16 (4 * n.val + j.val))).toNat := by
  have hword : Fin.ofNat 4 ((4 * n.val + j.val) % 16 / 4) = n := by
    apply Fin.ext
    rw [Fin.val_ofNat]
    omega
  have hbyte : Fin.ofNat 4 ((4 * n.val + j.val) % 16 % 4) = j := by
    apply Fin.ext
    rw [Fin.val_ofNat]
    omega
  rw [← byteOf_toNat, blockByte, Fin.val_ofNat, hword, hbyte]

/-- Settles O18: each read returns its word, whose bytes are those of the string. -/
theorem dataRegistersReadTheirWords : Obligations.DataRegistersReadTheirWords := by
  refine ⟨fun n data => ?_, fun s n => ⟨⟨_, rfl, blockWord_bytes s.cipher.iv n⟩,
    ⟨_, rfl, blockWord_bytes s.cipher.din n⟩, ⟨_, rfl, blockWord_bytes s.cipher.dout n⟩,
    ⟨_, rfl, blockWord_bytes s.cipher.cv n⟩⟩⟩
  simp only [decodeWord_packRead, ofNat_add_wordNo]
  exact ⟨decodeRead_iv n, decodeRead_din n, decodeRead_dout n, decodeRead_cv n⟩

end Sys2Proof.Reads

/-! The checksum algorithm of 40_checksum.md R130 to R136: the fold, the byte step inside its bounds, and what the sums of
a byte string come to. -/

namespace Sys2Proof.Fletcher

open Sys2Proof.Machine Sys2Proof.Checksum

/-! ## The fold (R132) -/

theorem fold1_toNat_le (s : Half) : (fold1 s).toNat ≤ 0x1FE := by
  have hs : s.toNat < 2 ^ 16 := s.isLt
  have h := fold1_toNat s
  omega

/-- A byte folds to itself. -/
theorem fold1_of_byte {s : Half} (h : s.toNat ≤ 0xFF) : fold1 s = s := by
  apply BitVec.eq_of_toNat_eq
  rw [fold1_toNat]
  omega

theorem fold8_eq_ite (s : Half) : fold8 s = if 0xFF < (fold1 s).toNat then fold1 (fold1 s) else fold1 s := rfl

/-- The second fold changes nothing where it is not due, so it can always be made. -/
theorem fold8_eq_fold1_fold1 (s : Half) : fold8 s = fold1 (fold1 s) := by
  rw [fold8_eq_ite]
  split
  · rfl
  · next hsmall => rw [fold1_of_byte (Nat.not_lt.1 hsmall)]

/-- The fold is the residue modulo 255, of which 0 is written 255 unless the sum is 0. -/
theorem fold8_toNat (s : Half) : (fold8 s).toNat = if s.toNat = 0 then 0 else (s.toNat - 1) % 255 + 1 := by
  have hs : s.toNat < 2 ^ 16 := s.isLt
  have honce := fold1_toNat s
  have htwice := fold1_toNat (fold1 s)
  rw [fold8_eq_fold1_fold1]
  split <;> omega

theorem fold8_toNat_of_pos {s : Half} (h : 1 ≤ s.toNat) : (fold8 s).toNat = (s.toNat - 1) % 255 + 1 := by
  rw [fold8_toNat, if_neg (Nat.one_le_iff_ne_zero.1 h)]

theorem fold8_toNat_modEq (s : Half) : (fold8 s).toNat ≡ s.toNat [MOD 255] := by
  rw [fold8_toNat, Nat.ModEq]
  split <;> omega

theorem fold8_fold8 (s : Half) : fold8 (fold8 s) = fold8 s := by
  have hbyte : (fold8 s).toNat ≤ 0xFF := Nat.le_of_lt_succ (fold8_toNat_lt s)
  rw [fold8_eq_fold1_fold1 (fold8 s), fold1_of_byte hbyte, fold1_of_byte hbyte]

/-- Settles O19: the fold once, twice, and in closed form. -/
theorem foldReducesModulo255 : Obligations.FoldReducesModulo255 :=
  fun s => ⟨fold1_toNat s, fold1_toNat_le s, fold8_eq_ite s, fold8_eq_fold1_fold1 s,
    Nat.le_of_lt_succ (fold8_toNat_lt s), fold8_fold8 s, fold8_toNat s⟩

/-! ## The byte step (R131, R135) -/

theorem s1Bound_succ (k : Nat) : s1Bound (k + 1) = s1Bound k + 255 := by
  simp only [s1Bound]
  omega

/-- One more byte adds at most the next bound of `S1` to `S2`. -/
theorem s2Bound_succ (k : Nat) : s2Bound (k + 1) = s2Bound k + s1Bound (k + 1) := by
  have htriangle : (k + 1) * (k + 1 + 1) / 2 = k * (k + 1) / 2 + (k + 1) := by
    rw [← Nat.add_mul_div_right _ _ two_pos]
    ring_nf
  simp only [s2Bound, s1Bound, htriangle]
  ring

theorem s1Bound_mono : Monotone s1Bound := monotone_nat_of_le_succ fun k => s1Bound_succ k ▸ Nat.le_add_right _ _

theorem s2Bound_mono : Monotone s2Bound := monotone_nat_of_le_succ fun k => s2Bound_succ k ▸ Nat.le_add_right _ _

/-- The sums of one byte stay within the bounds of the next count, so below `2 ^ 16`. -/
theorem sums_le_bounds {k : CkUnit} (hk : k.Good) (b : Byte) :
    k.s1.toNat + b.toNat ≤ s1Bound (k.cnt.toNat + 1) ∧
      k.s2.toNat + (k.s1.toNat + b.toNat) ≤ s2Bound (k.cnt.toNat + 1) := by
  obtain ⟨-, -, -, hs1, hs2⟩ := hk
  have hb : b.toNat < 2 ^ 8 := b.isLt
  rw [s2Bound_succ, s1Bound_succ]
  omega

/-- The bounds at the twentieth byte (R135). -/
theorem sums_le_last_bounds {k : CkUnit} (hk : k.Good) (b : Byte) :
    k.s1.toNat + b.toNat ≤ 0x14EB ∧ k.s2.toNat + (k.s1.toNat + b.toNat) ≤ 0xE619 := by
  obtain ⟨hs1, hs2⟩ := sums_le_bounds hk b
  obtain ⟨hcnt, -⟩ := hk
  replace hcnt : k.cnt.toNat + 1 ≤ 20 := Nat.succ_le_succ hcnt
  exact ⟨hs1.trans (s1Bound_mono hcnt), hs2.trans (s2Bound_mono hcnt)⟩

theorem addByte_toNat_of_good {k : CkUnit} (hk : k.Good) (b : Byte) :
    (addByte k b).s1.toNat = k.s1.toNat + b.toNat ∧
      (addByte k b).s2.toNat = k.s2.toNat + (k.s1.toNat + b.toNat) ∧ (addByte k b).cnt.toNat = k.cnt.toNat + 1 := by
  obtain ⟨hs1, hs2⟩ := sums_le_last_bounds hk b
  obtain ⟨hcnt, -⟩ := hk
  exact addByte_toNat (by omega) (by omega) (by omega)

/-- Settles O20: the byte that makes the count 20 is the one after count 19. -/
theorem absorbIsTheExactByteStep : Obligations.AbsorbIsTheExactByteStep := by
  intro k b hk
  obtain ⟨hs1, hs2⟩ := sums_le_last_bounds hk b
  obtain ⟨has1, has2, hacnt⟩ := addByte_toNat_of_good hk b
  refine ⟨hs1, hs2, fun hcnt => ?_, fun hcnt => ?_⟩ <;>
    obtain ⟨hdue, habsorb⟩ | ⟨hdue, habsorb⟩ := absorb_cases k b
  · omega
  · rw [habsorb]
    exact ⟨has1, has2, hacnt⟩
  · rw [habsorb, ← has2, ← has1, BitVec.ofNat_toNat, BitVec.ofNat_toNat, BitVec.setWidth_eq, BitVec.setWidth_eq]
  · omega

/-! ## The step keeps the invariant of the unit (10_state.md R47 items 1 and 2) -/

theorem fold8_toNat_bounds {s : Half} (h : 1 ≤ s.toNat) : 1 ≤ (fold8 s).toNat ∧ (fold8 s).toNat ≤ 255 := by
  rw [fold8_toNat_of_pos h]
  omega

theorem folded_good {s1 s2 : Half} (h1 : 1 ≤ s1.toNat) (h2 : 1 ≤ s2.toNat) : CkUnit.Good ⟨fold8 s1, fold8 s2, 0⟩ := by
  obtain ⟨hlow1, hhigh1⟩ := fold8_toNat_bounds h1
  obtain ⟨hlow2, hhigh2⟩ := fold8_toNat_bounds h2
  have hbound2 : s2Bound (0#5).toNat = 255 := by decide
  exact ⟨Nat.zero_le 19, hlow1, hlow2, hhigh1, hbound2 ▸ hhigh2⟩

theorem seeded_good : CkUnit.seeded.Good := by
  simp only [CkUnit.Good, s1Bound, s2Bound]
  decide

theorem absorb_good {k : CkUnit} (hk : k.Good) (b : Byte) : (absorb k b).Good := by
  obtain ⟨has1, has2, hacnt⟩ := addByte_toNat_of_good hk b
  obtain ⟨hs1, hs2⟩ := sums_le_bounds hk b
  obtain ⟨hcnt, hpos1, hpos2, -, -⟩ := hk
  obtain ⟨-, habsorb⟩ | ⟨hdue, habsorb⟩ := absorb_cases k b <;> rw [habsorb]
  · exact folded_good (by omega) (by omega)
  · rw [CkUnit.Good, has1, has2, hacnt]
    exact ⟨by omega, by omega, by omega, hs1, hs2⟩

theorem absorbAll_good {k : CkUnit} (hk : k.Good) (bs : List Byte) : (absorbAll k bs).Good := by
  induction bs generalizing k with
  | nil => exact hk
  | cons b bs ih => exact ih (absorb_good hk b)

/-! ## The accumulators without folds (R136) -/

/-- One byte added to accumulators that are never folded. -/
def addUnbounded (p : Nat × Nat) (b : Byte) : Nat × Nat := (p.1 + b.toNat, p.2 + (p.1 + b.toNat))

/-- The unit holds the residues modulo 255 of two unbounded sums. -/
def Tracks (k : CkUnit) (p : Nat × Nat) : Prop :=
  k.Good ∧ k.s1.toNat ≡ p.1 [MOD 255] ∧ k.s2.toNat ≡ p.2 [MOD 255]

theorem seeded_tracks : Tracks CkUnit.seeded (0xFF, 0xFF) := ⟨seeded_good, rfl, rfl⟩

/-- The residues add up, and the forced fold keeps them. -/
theorem Tracks.absorb {k : CkUnit} {p : Nat × Nat} (h : Tracks k p) (b : Byte) :
    Tracks (absorb k b) (addUnbounded p b) := by
  obtain ⟨hk, h1, h2⟩ := h
  obtain ⟨has1, has2, -⟩ := addByte_toNat_of_good hk b
  have hsum1 : (addByte k b).s1.toNat ≡ (addUnbounded p b).1 [MOD 255] := by
    rw [has1]
    exact h1.add_right _
  have hsum2 : (addByte k b).s2.toNat ≡ (addUnbounded p b).2 [MOD 255] := by
    rw [has2]
    exact h2.add (h1.add_right _)
  refine ⟨absorb_good hk b, ?_⟩
  obtain ⟨-, habsorb⟩ | ⟨-, habsorb⟩ := absorb_cases k b <;> rw [habsorb]
  · exact ⟨(fold8_toNat_modEq _).trans hsum1, (fold8_toNat_modEq _).trans hsum2⟩
  · exact ⟨hsum1, hsum2⟩

theorem Tracks.absorbAll {k : CkUnit} {p : Nat × Nat} (h : Tracks k p) (bs : List Byte) :
    Tracks (absorbAll k bs) (bs.foldl addUnbounded p) := by
  induction bs generalizing k p with
  | nil => exact h
  | cons b bs ih => exact ih (h.absorb b)

/-- The fold of a sum, seen from a sum with the same residue. -/
theorem fold8_toNat_of_modEq {s : Half} {n : Nat} (hs : 1 ≤ s.toNat) (hn : 1 ≤ n) (h : s.toNat ≡ n [MOD 255]) :
    (fold8 s).toNat = (n - 1) % 255 + 1 := by
  rw [fold8_toNat_of_pos hs]
  rw [Nat.ModEq] at h
  omega

theorem Tracks.cksum_toNat {k : CkUnit} {p : Nat × Nat} (h : Tracks k p) (h1 : 1 ≤ p.1) (h2 : 1 ≤ p.2) :
    (cksum k).toNat = 2 ^ 8 * ((p.2 - 1) % 255 + 1) + ((p.1 - 1) % 255 + 1) := by
  obtain ⟨⟨-, hpos1, hpos2, -, -⟩, hmod1, hmod2⟩ := h
  rw [Checksum.cksum_toNat, fold8_toNat_of_modEq hpos1 h1 hmod1, fold8_toNat_of_modEq hpos2 h2 hmod2]

/-- `A` and `B` of R136: the seed and all bytes; the seed and `A` after each byte. -/
def unboundedSums (bs : List Byte) : Nat × Nat :=
  (0xFF + (bs.map BitVec.toNat).sum,
    0xFF + ((List.range bs.length).map fun i => 0xFF + ((bs.take (i + 1)).map BitVec.toNat).sum).sum)

theorem unboundedSums_pos (bs : List Byte) : 1 ≤ (unboundedSums bs).1 ∧ 1 ≤ (unboundedSums bs).2 :=
  ⟨Nat.le_add_right_of_le (by decide), Nat.le_add_right_of_le (by decide)⟩

theorem unboundedSums_append (bs : List Byte) (b : Byte) :
    unboundedSums (bs ++ [b]) = addUnbounded (unboundedSums bs) b := by
  have hearlier : (List.range bs.length).map (fun i => 0xFF + (((bs ++ [b]).take (i + 1)).map BitVec.toNat).sum) =
      (List.range bs.length).map fun i => 0xFF + ((bs.take (i + 1)).map BitVec.toNat).sum := by
    apply List.map_congr_left
    intro i hi
    rw [List.take_append_of_le_length (List.mem_range.1 hi)]
  have hwhole : (bs ++ [b]).take (bs.length + 1) = bs ++ [b] := List.take_of_length_le (by simp)
  apply Prod.ext
  · simp [unboundedSums, addUnbounded, Nat.add_assoc]
  · simp only [unboundedSums, addUnbounded, List.length_append, List.length_singleton, List.range_succ, List.map_append,
      List.map_cons, List.map_nil, List.sum_append, List.sum_singleton, hearlier, hwhole, Nat.add_assoc]

theorem foldl_addUnbounded (bs : List Byte) : bs.foldl addUnbounded (0xFF, 0xFF) = unboundedSums bs := by
  induction bs using List.reverseRecOn with
  | nil => rfl
  | append_singleton bs b ih => rw [List.foldl_append, ih, unboundedSums_append]; rfl

/-- The checksum of a byte string is that of its unbounded sums. -/
theorem checksum_toNat (bs : List Byte) : (checksum bs).toNat =
    2 ^ 8 * (((unboundedSums bs).2 - 1) % 255 + 1) + (((unboundedSums bs).1 - 1) % 255 + 1) := by
  obtain ⟨h1, h2⟩ := unboundedSums_pos bs
  rw [checksum]
  exact (foldl_addUnbounded bs ▸ seeded_tracks.absorbAll bs).cksum_toNat h1 h2

/-- Settles O21: the unit tracks the two sums from the seed on. -/
theorem checksumClosedForm : Obligations.ChecksumClosedForm := checksum_toNat

/-! ## What the checksum does not see (R136 items 1, 2 and 4) -/

theorem checksum_bytes_pos (bs : List Byte) : (checksum bs).toNat % 256 ≠ 0 ∧ (checksum bs).toNat / 256 ≠ 0 := by
  rw [checksum_toNat]
  omega

/-- A byte `FF` adds a multiple of 255 to both sums, as a byte `00` does. -/
theorem Tracks.absorb_FF {k : CkUnit} {p : Nat × Nat} (h : Tracks k p) :
    Tracks (Machine.absorb k 0xFF#8) (addUnbounded p 0x00#8) := by
  obtain ⟨hgood, h1, h2⟩ := h.absorb 0xFF#8
  have hff : p.1 + 0xFF ≡ p.1 [MOD 255] := Nat.add_modEq_right
  exact ⟨hgood, h1.trans hff, h2.trans (hff.add_left p.2)⟩

/-- With `FF` for `00` the unit tracks the same sums. -/
theorem tracks_replaced (front back : List Byte) :
    Tracks (absorbAll CkUnit.seeded (front ++ 0xFF#8 :: back)) (unboundedSums (front ++ 0x00#8 :: back)) := by
  rw [← foldl_addUnbounded, absorbAll_append, List.foldl_append]
  exact (seeded_tracks.absorbAll front).absorb_FF.absorbAll back

theorem checksum_zero_FF (front back : List Byte) :
    checksum (front ++ 0x00#8 :: back) = checksum (front ++ 0xFF#8 :: back) := by
  obtain ⟨h1, h2⟩ := unboundedSums_pos (front ++ 0x00#8 :: back)
  apply BitVec.eq_of_toNat_eq
  rw [checksum_toNat, checksum, (tracks_replaced front back).cksum_toNat h1 h2]

/-- Settles O22: from the closed form, and because both bytes keep the residues. -/
theorem checksumNeverZeroAndBlindToFF : Obligations.ChecksumNeverZeroAndBlindToFF :=
  ⟨checksum_bytes_pos, rfl, checksum_zero_FF⟩

end Sys2Proof.Fletcher

/-! What one operation can do to the state, said once: `Transition`, and that every operation answers by one. -/

namespace Sys2Proof.Transitions

open Sys2Proof.Machine Sys2Proof.Laws Sys2Proof.Encoding Sys2Proof.Cipher Sys2Proof.RoundTrip Sys2Proof.Fletcher

/-! ## What an operation can do -/

/-- The operations that can raise each fault (60_exceptions.md R290). -/
def raisers : FaultCode → List String
  | .illegal => ["WR.ILLEGAL"]
  | .config => ["C_START"]
  | .framing => ["C_START", "C_BLOCK", "C_FINISH"]
  | .integrity => ["WR.CK_VERIFY"]
  | .sequence => ["WR.KEYn", "WR.IVn", "WR.CTRL", "WR.LEN", "KEY_CLEAR", "C_START", "C_BLOCK", "C_FINISH"]

/-- From `s`, the operation can lead to the state: by returning a read, by changing nothing, by faulting, or by its own
effect under the conditions it checks. -/
inductive Transition (s : State) : Instr → State → Prop where
  | read {i : Instr} (v : Word) : Transition s i (returnRead v s)
  | unchanged {i : Instr} : Transition s i s
  | fault {i : Instr} (code : FaultCode) (hnone : s.err.ecode = 0) (hwrite : (transactionOf i).1 = true)
      (hraiser : mnemonicOf i ∈ raisers code) :
      Transition s i (raiseFault code (transactionOf i).2.1 (transactionOf i).2.2 s)
  | eack : Transition s .eack (ackFault s)
  | srst : Transition s .srst (resetBlock s)
  | ckInit : Transition s .ckInit (s.withCk CkUnit.seeded)
  | ckData8 (b : Byte) : Transition s (.wrCkData8 b) (s.withCk (absorb s.ck b))
  | ckData32 (w : Word) : Transition s (.wrCkData32 w) (s.withCk (absorbAll s.ck (bytesOf w)))
  | writeKey (hidle : s.cipher.cst = .idle) (n : WordNo) (w : Word) :
      Transition s (.wrKey n w) (s.withCipher (s.cipher.writeKey n w))
  | clearKey (hidle : s.cipher.cst = .idle) : Transition s .keyClear (s.withCipher s.cipher.clearKey)
  | writeIv (hidle : s.cipher.cst = .idle) (n : WordNo) (w : Word) :
      Transition s (.wrIv n w) (s.withCipher (s.cipher.writeIv n w))
  | writeDin (n : WordNo) (w : Word) : Transition s (.wrDin n w) (s.withCipher (s.cipher.writeDin n w))
  | setCtrl (hidle : s.cipher.cst = .idle) (dir : Direction) (tap : Bool) :
      Transition s (.wrCtrl dir tap) (s.withCipher (s.cipher.setCtrl dir tap))
  | setLen (hidle : s.cipher.cst = .idle) (v : Half) : Transition s (.wrLen v) (s.withCipher (s.cipher.setLen v))
  | openMessage (hnone : s.err.ecode = 0) (hidle : s.cipher.cst = .idle) (hkey : s.cipher.kmask.toNat = 15)
      (hlen : s.cipher.len.toNat % 16 = 0) : Transition s .cStart (s.withCipher s.cipher.openMessage)
  | processBlock (hrun : s.cipher.cst = .run) (hrem : 16 ≤ s.cipher.rem.toNat) :
      Transition s .cBlock ((s.withCipher s.cipher.processBlock).withCk (tapBlock s.ck s.cipher))
  | closeMessage (hnone : s.err.ecode = 0) (hrun : s.cipher.cst = .run) (hrem : s.cipher.rem.toNat = 0) :
      Transition s .cFinish (s.withCipher s.cipher.closeMessage)
  | leaveMessage (hnone : s.err.ecode = 0) : Transition s .cAbort (s.withCipher s.cipher.leaveMessage)

section Guards

variable {s : State} {i : Instr} {f : State → State}

/-- A write is ignored or performed. -/
theorem Transition.accepted (h : s.err.ecode = 0 → Transition s i (f s)) : Transition s i (acceptWrite s f) := by
  obtain ⟨-, heq⟩ | ⟨hnone, heq⟩ := acceptWrite_cases s f <;> rw [heq]
  · exact .unchanged
  · exact h hnone

/-- A write of `IDLE` is ignored, faults in `RUN`, or is performed. -/
theorem Transition.idleOnly (hwrite : (transactionOf i).1 = true) (hraiser : mnemonicOf i ∈ raisers .sequence)
    (h : s.err.ecode = 0 → s.cipher.cst = .idle → Transition s i (f s)) :
    Transition s i (acceptWrite s fun s => whenIdle (transactionOf i).2.1 (transactionOf i).2.2 s f) := by
  refine .accepted fun hnone => ?_
  obtain ⟨-, heq⟩ | ⟨hidle, heq⟩ := whenIdle_cases (transactionOf i).2.1 (transactionOf i).2.2 s f <;> rw [heq]
  · exact .fault .sequence hnone hwrite hraiser
  · exact h hnone hidle

/-- A command of `RUN` is ignored, faults in `IDLE`, or is performed. -/
theorem Transition.runOnly {op : Byte} (hcommand : transactionOf i = (true, Reg.cmd, commandData op))
    (hraiser : mnemonicOf i ∈ raisers .sequence) (h : s.err.ecode = 0 → s.cipher.cst = .run → Transition s i (f s)) :
    Transition s i (acceptWrite s fun s => whenRunning op s f) := by
  refine .accepted fun hnone => ?_
  obtain ⟨-, heq⟩ | ⟨hrun, heq⟩ := whenRunning_cases op s f <;> rw [heq]
  · have hfault : Transition s i (raiseFault .sequence (transactionOf i).2.1 (transactionOf i).2.2 s) :=
      .fault .sequence hnone (by rw [hcommand]) hraiser
    rwa [hcommand] at hfault
  · exact h hnone hrun

end Guards

theorem transition_cStart (s : State) (hnone : s.err.ecode = 0) (hidle : s.cipher.cst = .idle) :
    Transition s .cStart
      (if !(keyValid s.cipher && ivValid s.cipher) then raiseFault .config Reg.cmd (commandData Opcode.cStart) s
      else if s.cipher.len % 16 ≠ 0 then raiseFault .framing Reg.cmd (commandData Opcode.cStart) s
      else s.withCipher s.cipher.openMessage) := by
  split
  · exact .fault .config hnone rfl (by decide)
  · next hmasks =>
    split
    · exact .fault .framing hnone rfl (by decide)
    · next hlen =>
      rw [Bool.not_eq_true', Bool.not_eq_false, masksValid_iff] at hmasks
      obtain ⟨hkey, -⟩ := hmasks
      exact .openMessage hnone hidle hkey ((length_mod_sixteen_iff _).1 (not_not.1 hlen))

theorem transition_cBlock (s : State) (hnone : s.err.ecode = 0) (hrun : s.cipher.cst = .run) :
    Transition s .cBlock
      (if s.cipher.rem < 16 then raiseFault .framing Reg.cmd (commandData Opcode.cBlock) s
      else (s.withCipher s.cipher.processBlock).withCk (tapBlock s.ck s.cipher)) := by
  split
  · exact .fault .framing hnone rfl (by decide)
  · next hrem => exact .processBlock hrun (Nat.not_lt.1 hrem)

theorem transition_cFinish (s : State) (hnone : s.err.ecode = 0) (hrun : s.cipher.cst = .run) :
    Transition s .cFinish
      (if s.cipher.rem ≠ 0 then raiseFault .framing Reg.cmd (commandData Opcode.cFinish) s
      else s.withCipher s.cipher.closeMessage) := by
  split
  · exact .fault .framing hnone rfl (by decide)
  · next hrem => exact .closeMessage hnone hrun (congrArg BitVec.toNat (not_not.1 hrem))

theorem transition_ckVerify (s : State) (expect : Half) (hnone : s.err.ecode = 0) :
    Transition s (.wrCkVerify expect)
      (if cksum s.ck = expect then s else raiseFault .integrity Reg.ckVerify (expect.setWidth 32) s) := by
  split
  · exact .unchanged
  · exact .fault .integrity hnone rfl (List.mem_singleton.2 rfl)

/-- Every operation answers a next state, by one of the transitions. -/
theorem exec_transition (i : Instr) (s : State) : ∃ u, exec i s = .next u ∧ Transition s i u := by
  cases i with
  | rdId | rdStatus | rdCtrl | rdErr | rdLen | rdRem | rdCksum | rdCkAcc => exact ⟨_, rfl, .read _⟩
  | rdIv | rdDin | rdDout | rdCv | rdZero => exact ⟨_, rfl, .read _⟩
  | wrCtrl dir tap =>
    exact ⟨_, rfl, .idleOnly rfl (by simp [mnemonicOf, raisers]) fun _ hidle => .setCtrl hidle dir tap⟩
  | wrLen v => exact ⟨_, rfl, .idleOnly rfl (by simp [mnemonicOf, raisers]) fun _ hidle => .setLen hidle v⟩
  | wrKey n w => exact ⟨_, rfl, .idleOnly rfl (by simp [mnemonicOf, raisers]) fun _ hidle => .writeKey hidle n w⟩
  | wrIv n w => exact ⟨_, rfl, .idleOnly rfl (by simp [mnemonicOf, raisers]) fun _ hidle => .writeIv hidle n w⟩
  | keyClear => exact ⟨_, rfl, .idleOnly rfl (by decide) fun _ hidle => .clearKey hidle⟩
  | cStart => exact ⟨_, rfl, .idleOnly rfl (by decide) (transition_cStart s)⟩
  | cBlock => exact ⟨_, rfl, .runOnly rfl (by decide) (transition_cBlock s)⟩
  | cFinish => exact ⟨_, rfl, .runOnly rfl (by decide) (transition_cFinish s)⟩
  | wrDin n w => exact ⟨_, rfl, .accepted fun _ => .writeDin n w⟩
  | wrCkData8 b => exact ⟨_, rfl, .accepted fun _ => .ckData8 b⟩
  | wrCkData32 w => exact ⟨_, rfl, .accepted fun _ => .ckData32 w⟩
  | wrCkVerify expect => exact ⟨_, rfl, .accepted (transition_ckVerify s expect)⟩
  | wrIllegal idx data => exact ⟨_, rfl, .accepted fun hnone => .fault .illegal hnone rfl (List.mem_singleton.2 rfl)⟩
  | nop => exact ⟨_, rfl, .accepted fun _ => .unchanged⟩
  | ckInit => exact ⟨_, rfl, .accepted fun _ => .ckInit⟩
  | cAbort => exact ⟨_, rfl, .accepted .leaveMessage⟩
  | eack => exact ⟨_, rfl, .eack⟩
  | srst => exact ⟨_, rfl, .srst⟩

end Sys2Proof.Transitions

/-! Every step of the machine, from what one operation can do: progress, reset, faults, messages, writers, and the
invariants of the reachable state. -/

namespace Sys2Proof.Transitions

open Sys2Proof.Machine Sys2Proof.Laws Sys2Proof.Encoding Sys2Proof.Cipher Sys2Proof.RoundTrip Sys2Proof.Fletcher

/-! ## The step (42_system.md section 1) -/

/-- The state with the oldest event taken off the queue. -/
def dequeued (s : State) (rest : List HostEvent) : State := s.withPort { s.port with pending := rest }

/-- The step of a transaction is a transition of the operation it decodes to. -/
theorem step_transition {s u : State} {t : TWord} {rest : List HostEvent}
    (hpending : s.port.pending = .transaction t :: rest) (hstep : step s = .next u) :
    Transition (dequeued s rest) (decodeWord t) u := by
  obtain ⟨v, hexec, htrans⟩ := exec_transition (decodeWord t) (dequeued s rest)
  have heq : step s = .next v := (step_transaction hpending).trans hexec
  rw [hstep] at heq
  cases heq
  exact htrans

/-- Settles O9: the five bytes are those of the word, so they decode to what the step executes. -/
theorem stepRunsTheOldestTransaction : Obligations.StepRunsTheOldestTransaction := by
  intro s t rest i hpending hdecode _
  have hword := decode_bytesOfWord t []
  rw [List.append_nil, hdecode] at hword
  cases hword
  exact step_transaction hpending

/-- Settles O10: the first case of the step. -/
theorem idleBlockChangesNothing : Obligations.IdleBlockChangesNothing := fun _ hpending => step_idle hpending

/-- Settles O11: an operation always has a next state, and so has each other event. -/
theorem everyStepHasANextState : Obligations.EveryStepHasANextState := by
  intro s
  rcases step_cases (s := s) rfl with ⟨-, hstep⟩ | ⟨t, rest, -, hstep⟩ | ⟨rest, -, hstep⟩
  · exact ⟨_, hstep⟩
  · obtain ⟨u, hexec, -⟩ := exec_transition (decodeWord t) (dequeued s rest)
    exact ⟨u, hstep.trans hexec⟩
  · exact ⟨_, hstep⟩

/-- Settles O12: the reset state's fields, which `SRST` and `Reset` put in place of the block's. -/
theorem resetGivesEveryRegisterItsValue : Obligations.ResetGivesEveryRegisterItsValue :=
  ⟨⟨rfl, rfl, rfl⟩, fun _ => rfl, fun _ _ hpending => step_reset hpending⟩

/-! ## Faults (60_exceptions.md) -/

/-- Of the writes, a held fault lets through `EACK` and `SRST` only. -/
theorem exec_write_of_faulted {i : Instr} {s : State} (hwrite : (transactionOf i).1 = true) (hheld : s.err.ecode ≠ 0)
    (heack : i ≠ .eack) (hsrst : i ≠ .srst) : exec i s = .next s := by
  cases i with
  | eack => exact absurd rfl heack
  | srst => exact absurd rfl hsrst
  | rdId | rdStatus | rdCtrl | rdErr | rdLen | rdRem | rdCksum | rdCkAcc => exact absurd hwrite (by decide)
  | rdIv | rdDin | rdDout | rdCv | rdZero => cases hwrite
  | wrCtrl | wrLen | wrCkData8 | wrCkData32 | wrCkVerify | wrKey | wrIv | wrDin | wrIllegal =>
    exact congrArg _ (acceptWrite_faulted hheld _)
  | nop | ckInit | cStart | cBlock | cFinish | cAbort | keyClear =>
    exact congrArg _ (acceptWrite_faulted hheld _)

/-- A write stands for the one operation whose encoding it is. -/
theorem decodeWord_eq_iff_of_write {t : TWord} (h : weOf t = true) {i : Instr} (hwf : i.wellFormed = true) :
    decodeWord t = i ↔ t.toNat = (encodeWord i).toNat := by
  rw [BitVec.toNat_inj]
  constructor
  · intro hdecode
    rw [← hdecode, encodeWord_decodeWord_of_write h]
  · rintro rfl
    exact decodeWord_encodeWord hwf

/-- Settles O49: `EACK` and `SRST` are one word each, and no other write is let through. -/
theorem faultedStateIgnoresWrites : Obligations.FaultedStateIgnoresWrites := by
  intro s t rest hpending hwrite hheld
  have heack : decodeWord t = .eack ↔ t.toNat = 0x830000007E := decodeWord_eq_iff_of_write hwrite rfl
  have hsrst : decodeWord t = .srst ↔ t.toNat = 0x830000007F := decodeWord_eq_iff_of_write hwrite rfl
  rw [step_transaction hpending]
  simp only [← heack, ← hsrst]
  split
  · next hdecode => rw [hdecode]; rfl
  split
  · next hdecode => rw [hdecode]; rfl
  · next hne hns =>
    obtain ⟨hwe, -⟩ := fields_of_decodeWord (t := t) rfl
    exact exec_write_of_faulted (hwe.symm.trans hwrite) hheld hne hns

/-- The fault record is kept, cleared, or written by a fault of the operation. -/
theorem Transition.err_cases {s u : State} {i : Instr} (h : Transition s i u) :
    u.err = s.err ∨ u.err = FaultRecord.none ∨
      ∃ code, s.err.ecode = 0 ∧ (transactionOf i).1 = true ∧ mnemonicOf i ∈ raisers code ∧
        u = raiseFault code (transactionOf i).2.1 (transactionOf i).2.2 s := by
  cases h with
  | fault code hnone hwrite hraiser => exact .inr (.inr ⟨code, hnone, hwrite, hraiser, rfl⟩)
  | eack | srst => exact .inr (.inl rfl)
  | _ => exact .inl (by simp)

/-- A step that finds no fault and leaves one is a fault of its transaction. -/
theorem step_raises {s u : State} {t : TWord} {rest : List HostEvent}
    (hpending : s.port.pending = .transaction t :: rest) (hnone : s.err.ecode = 0) (hstep : step s = .next u)
    (hheld : u.err.ecode ≠ 0) : ∃ code, weOf t = true ∧ mnemonicOf (decodeWord t) ∈ raisers code ∧
      u = raiseFault code (idxOf t) (dataOf t) (dequeued s rest) := by
  rcases (step_transition hpending hstep).err_cases with hkept | hcleared | ⟨code, -, hwrite, hraiser, hu⟩
  · rw [hkept] at hheld
    exact absurd hnone hheld
  · rw [hcleared] at hheld
    exact absurd rfl hheld
  · obtain ⟨hwe, hidx, hdata⟩ := fields_of_decodeWord (t := t) rfl
    rw [← hidx, ← hdata hwrite] at hu
    exact ⟨code, hwe.trans hwrite, hraiser, hu⟩

/-- Settles O50: the record is that of the transaction's own index and data, and nothing else is written. -/
theorem faultsArePrecise : Obligations.FaultsArePrecise := by
  intro s u t rest hpending hnone hstep hheld
  obtain ⟨code, hwrite, -, rfl⟩ := step_raises hpending hnone hstep hheld
  have hidx := index_eq_bitField (t := t) rfl
  have hdata := data_eq_bitField (t := t) rfl
  have hcmd : idxOf t = Reg.cmd ↔ t.toNat / 2 ^ 32 % 2 ^ 7 = 0x03 := by
    rw [← BitVec.toNat_inj, hidx]
    rfl
  refine ⟨hwrite, hidx, ?_, rfl, rfl, rfl⟩
  rw [raiseFault_err]
  simp only [hcmd]
  split
  · rw [BitVec.toNat_setWidth, hdata, Nat.mod_mod_of_dvd _ (by decide)]
  · rfl

/-- Settles O51: the fault's code is that of the list its operation is in. -/
theorem faultCodesComeFromTheirOperations : Obligations.FaultCodesComeFromTheirOperations := by
  intro s u t rest hpending hnone hstep hheld
  obtain ⟨code, -, hraiser, rfl⟩ := step_raises hpending hnone hstep hheld
  cases code with
  | illegal => exact .inl ⟨rfl, List.mem_singleton.1 hraiser⟩
  | config => exact .inr (.inl ⟨rfl, List.mem_singleton.1 hraiser⟩)
  | framing => exact .inr (.inr (.inl ⟨rfl, hraiser⟩))
  | integrity => exact .inr (.inr (.inr (.inl ⟨rfl, List.mem_singleton.1 hraiser⟩)))
  | sequence => exact .inr (.inr (.inr (.inr ⟨rfl, hraiser⟩)))

/-! ## Messages (10_state.md R36, 41_cipher.md R160) -/

/-- The parameters of a message: what `C_BLOCK` and `WR.DINn` leave unchanged. -/
def SameParameters (c d : CipherUnit) : Prop :=
  d.key = c.key ∧ d.kmask = c.kmask ∧ d.iv = c.iv ∧ d.imask = c.imask ∧ d.dir = c.dir ∧ d.mode = c.mode ∧
    d.tap = c.tap ∧ d.len = c.len ∧ d.done = c.done

theorem SameParameters.refl (c : CipherUnit) : SameParameters c c := ⟨rfl, rfl, rfl, rfl, rfl, rfl, rfl, rfl, rfl⟩

/-- In `RUN` an operation that writes a parameter faults, or it ends the message. -/
theorem Transition.sameParameters {s u : State} {i : Instr} (h : Transition s i u) (hrun : s.cipher.cst = .run)
    (hopen : u.cipher.cst = .run) : SameParameters s.cipher u.cipher := by
  cases h with
  | read | unchanged | fault | eack | ckInit | ckData8 | ckData32 | writeDin | processBlock => simp [SameParameters]
  | writeKey hidle | clearKey hidle | writeIv hidle | setCtrl hidle | setLen hidle =>
    rw [hrun] at hidle
    cases hidle
  | openMessage _ hidle =>
    rw [hrun] at hidle
    cases hidle
  | closeMessage | leaveMessage | srst => cases hopen

/-- Settles O52: no step with a message open before and after it writes a parameter. -/
theorem messageParametersAreFrozen : Obligations.MessageParametersAreFrozen := by
  intro s u hrun hstep hopen
  rcases step_cases hstep with ⟨-, hu⟩ | ⟨t, rest, hpending, -⟩ | ⟨rest, -, hu⟩
  · cases hu
    exact SameParameters.refl _
  · exact (step_transition hpending hstep).sameParameters hrun hopen
  · cases hu
    cases hopen

theorem Transition.opens {s u : State} {i : Instr} (h : Transition s i u) (hidle : s.cipher.cst = .idle)
    (hopen : u.cipher.cst = .run) : i = .cStart ∧ s.err.ecode = 0 := by
  cases h with
  | openMessage hnone => exact ⟨rfl, hnone⟩
  | _ => simp [hidle, CipherUnit.cleared] at hopen

theorem Transition.closes {s u : State} {i : Instr} (h : Transition s i u) (hrun : s.cipher.cst = .run)
    (hclosed : u.cipher.cst = .idle) : i = .srst ∨ (i = .cAbort ∧ s.err.ecode = 0) ∨
      (i = .cFinish ∧ s.err.ecode = 0 ∧ s.cipher.rem.toNat = 0) := by
  cases h with
  | srst => exact .inl rfl
  | leaveMessage hnone => exact .inr (.inl ⟨rfl, hnone⟩)
  | closeMessage hnone _ hrem => exact .inr (.inr ⟨rfl, hnone, hrem⟩)
  | openMessage => cases hclosed
  | _ => simp [hrun] at hclosed

/-- Settles O53: the transitions that move the sequencer. -/
theorem sequencerMovesOnlyByItsCommands : Obligations.SequencerMovesOnlyByItsCommands := by
  intro s u hstep
  rcases step_cases hstep with ⟨-, hu⟩ | ⟨t, rest, hpending, -⟩ | ⟨rest, hpending, hu⟩
  · cases hu
    exact ⟨fun hidle hopen => (nomatch hidle.symm.trans hopen), fun hrun hclosed => (nomatch hrun.symm.trans hclosed)⟩
  · have htrans := step_transition hpending hstep
    refine ⟨fun hidle hopen => ?_, fun hrun hclosed => .inr ⟨t, rest, hpending, htrans.closes hrun hclosed⟩⟩
    exact ⟨t, rest, hpending, htrans.opens hidle hopen⟩
  · cases hu
    exact ⟨fun _ hopen => (nomatch hopen), fun _ _ => .inl ⟨rest, hpending⟩⟩

/-! ## Writers (10_state.md R21, R43) -/

@[simp] theorem dequeued_ck (s : State) (rest : List HostEvent) : (dequeued s rest).ck = s.ck := rfl

@[simp] theorem dequeued_cipher (s : State) (rest : List HostEvent) : (dequeued s rest).cipher = s.cipher := rfl

@[simp] theorem dequeued_err (s : State) (rest : List HostEvent) : (dequeued s rest).err = s.err := rfl

theorem tapBlock_ne {k : CkUnit} {c : CipherUnit} (h : tapBlock k c ≠ k) : c.tap = true :=
  Bool.eq_true_of_not_eq_false fun hoff => h (tapBlock_off hoff k)

/-- Settles O54: a transition changes only the fields its update names, and has the mnemonic of one of their writers. -/
theorem eachRegisterHasItsWriters : Obligations.EachRegisterHasItsWriters := by
  intro s u t rest hpending hstep
  have htrans := step_transition hpending hstep
  generalize decodeWord t = i at htrans ⊢
  cases htrans with
  | read | unchanged => simp
  | fault code hnone =>
    obtain ⟨hraised, -⟩ := code.toBits_range
    have hrecorded : s.err.ecode = 0 := hnone
    have hcode : ¬ code.toBits = 0#3 := hraised
    simp [hcode, hrecorded]
  | processBlock => simpa [mnemonicOf] using tapBlock_ne
  | _ => simp [mnemonicOf]

/-! ## Invariants (10_state.md R47) -/

theorem Transition.ck_good {s u : State} {i : Instr} (h : Transition s i u) (hs : s.ck.Good) : u.ck.Good := by
  cases h with
  | ckInit | srst => exact seeded_good
  | ckData8 b => simpa using absorb_good hs b
  | ckData32 w => simpa using absorbAll_good hs (bytesOf w)
  | processBlock =>
    rw [State.withCk_ck, tapBlock]
    split
    · exact absorbAll_good hs _
    · exact hs
  | _ => simpa using hs

theorem cleared_good : CipherUnit.cleared.Good := by
  simp only [CipherUnit.Good]
  decide

/-- Outside a message only the accounting of the last one and the mode are bound. -/
theorem cipher_good_of_idle {c : CipherUnit} (hidle : c.cst = .idle) (hrem : c.rem.toNat % 16 = 0)
    (hmode : c.mode = 0) : c.Good := by
  have hnotRun : c.cst ≠ .run := by rw [hidle]; decide
  exact ⟨hrem, fun hrun => absurd hrun hnotRun, hmode, fun hrun => absurd hrun hnotRun⟩

theorem openMessage_good {c : CipherUnit} (hmode : c.mode = 0) (hkey : c.kmask.toNat = 15)
    (hlen : c.len.toNat % 16 = 0) : c.openMessage.Good :=
  ⟨hlen, fun _ => le_rfl, hmode, fun _ => ⟨BitVec.eq_of_toNat_eq hkey, rfl, rfl⟩⟩

theorem processBlock_good {c : CipherUnit} (h : c.Good) (hrem : 16 ≤ c.rem.toNat) : c.processBlock.Good := by
  obtain ⟨hmod, hle, hmode, hrunning⟩ := h
  have hleft : (c.rem - 16).toNat = c.rem.toNat - 16 := BitVec.toNat_sub_of_le hrem
  refine ⟨?_, fun hrun => ?_, hmode, hrunning⟩
  · rw [CipherUnit.processBlock_rem, hleft]
    omega
  · rw [CipherUnit.processBlock_rem, hleft]
    exact (Nat.sub_le _ _).trans (hle hrun)

theorem Transition.cipher_good {s u : State} {i : Instr} (h : Transition s i u) (hs : s.cipher.Good) :
    u.cipher.Good := by
  obtain ⟨hmod, -, hmode, -⟩ := id hs
  cases h with
  | srst => exact cleared_good
  | writeKey hidle | clearKey hidle | writeIv hidle | setLen hidle => exact cipher_good_of_idle hidle hmod hmode
  | setCtrl hidle => exact cipher_good_of_idle hidle hmod rfl
  | openMessage _ _ hkey hlen => exact openMessage_good hmode hkey hlen
  | processBlock _ hrem => exact processBlock_good hs hrem
  | writeDin => simpa [CipherUnit.Good] using hs
  | closeMessage | leaveMessage => exact cipher_good_of_idle rfl hmod hmode
  | _ => simpa using hs

theorem noFault_good : FaultRecord.none.Good := ⟨by decide, fun _ => ⟨rfl, rfl⟩⟩

theorem Transition.err_good {s u : State} {i : Instr} (h : Transition s i u) (hs : s.err.Good) : u.err.Good := by
  rcases h.err_cases with hkept | hcleared | ⟨code, -, -, -, rfl⟩
  · rwa [hkept]
  · rw [hcleared]
    exact noFault_good
  · obtain ⟨hne, hle⟩ := code.toBits_range
    exact ⟨hle, fun hzero => absurd hzero hne⟩

/-- Settles O56: each part of the reset state meets its invariants. -/
theorem resetStateIsGood : Obligations.ResetStateIsGood := ⟨seeded_good, cleared_good, noFault_good⟩

/-- Settles O55: unit by unit, over the transitions of an operation; `Reset` answers the reset state. -/
theorem goodStatesStayGood : Obligations.GoodStatesStayGood := by
  intro s u hs hstep
  rcases step_cases hstep with ⟨-, hu⟩ | ⟨t, rest, hpending, -⟩ | ⟨rest, -, hu⟩
  · cases hu
    exact hs
  · obtain ⟨hck, hcipher, herr⟩ := hs
    have htrans := step_transition hpending hstep
    exact ⟨htrans.ck_good hck, htrans.cipher_good hcipher, htrans.err_good herr⟩
  · cases hu
    exact resetStateIsGood

/-! ## Runs from two states that the guards do not tell apart -/

section Related

variable {R : State → State → Prop} {s u : State} {f : State → State} (herr : u.err = s.err) (h : R s u)

include herr h

theorem acceptWrite_related (hf : R (f s) (f u)) : R (acceptWrite s f) (acceptWrite u f) := by
  by_cases hnone : s.err.ecode = 0
  · rwa [acceptWrite_unfaulted hnone, acceptWrite_unfaulted (herr ▸ hnone)]
  · rwa [acceptWrite_faulted hnone, acceptWrite_faulted (herr ▸ hnone)]

variable (hcst : u.cipher.cst = s.cipher.cst)

include hcst

theorem idleWrite_related {idx : Idx} {data : Word}
    (hfault : R (raiseFault .sequence idx data s) (raiseFault .sequence idx data u)) (hf : R (f s) (f u)) :
    R (acceptWrite s fun s => whenIdle idx data s f) (acceptWrite u fun s => whenIdle idx data s f) := by
  refine acceptWrite_related herr h ?_
  cases hs : s.cipher.cst
  · rwa [whenIdle_idle hs, whenIdle_idle (hcst.trans hs)]
  · rwa [whenIdle_run hs, whenIdle_run (hcst.trans hs)]

theorem runCommand_related {op : Byte}
    (hfault : R (raiseFault .sequence Reg.cmd (commandData op) s) (raiseFault .sequence Reg.cmd (commandData op) u))
    (hf : R (f s) (f u)) :
    R (acceptWrite s fun s => whenRunning op s f) (acceptWrite u fun s => whenRunning op s f) := by
  refine acceptWrite_related herr h ?_
  cases hs : s.cipher.cst
  · rwa [whenRunning_idle hs, whenRunning_idle (hcst.trans hs)]
  · rwa [whenRunning_run hs, whenRunning_run (hcst.trans hs)]

end Related

theorem ite_related {R : State → State → Prop} {p : Prop} [Decidable p] {a b c d : State} (hac : R a c) (hbd : R b d) :
    R (if p then a else b) (if p then c else d) := by
  split <;> assumption

/-! ### The key (10_state.md R27, 60_exceptions.md R305) -/

/-- The state with another key. -/
def rekeyed (s : State) (key : Block) : State := s.ciphered { s.cipher with key := key }

/-- The states are the same but for the key. -/
def KeyApart (s u : State) : Prop := ∃ key, u = rekeyed s key

theorem rekeyed_withCk (s : State) (key : Block) (k : CkUnit) :
    (rekeyed s key).withCk k = rekeyed (s.withCk k) key := rfl

/-- No operation but `C_BLOCK` reads the key; a key write and `KEY_CLEAR` leave another one. -/
theorem exec_rekeyed {i : Instr} (hi : i ≠ .cBlock) (s : State) (key : Block) :
    ∃ v w, exec i s = .next v ∧ exec i (rekeyed s key) = .next w ∧ KeyApart v w := by
  have herr : (rekeyed s key).err = s.err := rfl
  have hcst : (rekeyed s key).cipher.cst = s.cipher.cst := rfl
  have hkey : KeyApart s (rekeyed s key) := ⟨key, rfl⟩
  have hfault (code : FaultCode) (idx : Idx) (data : Word) :
      KeyApart (raiseFault code idx data s) (raiseFault code idx data (rekeyed s key)) := ⟨key, rfl⟩
  cases i with
  | cBlock => exact absurd rfl hi
  | rdId | rdStatus | rdCtrl | rdErr | rdLen | rdRem | rdCksum | rdCkAcc => exact ⟨_, _, rfl, rfl, key, rfl⟩
  | rdIv | rdDin | rdDout | rdCv | rdZero => exact ⟨_, _, rfl, rfl, key, rfl⟩
  | wrCtrl | wrLen | wrKey | wrIv | keyClear =>
    exact ⟨_, _, rfl, rfl, idleWrite_related (R := KeyApart) herr hkey hcst (hfault ..) ⟨_, rfl⟩⟩
  | cStart =>
    exact ⟨_, _, rfl, rfl, idleWrite_related (R := KeyApart) herr hkey hcst (hfault ..)
      (ite_related (hfault ..) (ite_related (hfault ..) ⟨key, rfl⟩))⟩
  | cFinish =>
    exact ⟨_, _, rfl, rfl, runCommand_related (R := KeyApart) herr hkey hcst (hfault ..)
      (ite_related (hfault ..) ⟨key, rfl⟩)⟩
  | wrCkVerify => exact ⟨_, _, rfl, rfl, acceptWrite_related (R := KeyApart) herr hkey (ite_related hkey (hfault ..))⟩
  | wrCkData8 | wrCkData32 | ckInit =>
    exact ⟨_, _, rfl, rfl, acceptWrite_related (R := KeyApart) herr hkey ⟨key, rekeyed_withCk ..⟩⟩
  | wrDin | cAbort => exact ⟨_, _, rfl, rfl, acceptWrite_related (R := KeyApart) herr hkey ⟨key, rfl⟩⟩
  | wrIllegal => exact ⟨_, _, rfl, rfl, acceptWrite_related (R := KeyApart) herr hkey (hfault ..)⟩
  | nop => exact ⟨_, _, rfl, rfl, acceptWrite_related (R := KeyApart) herr hkey hkey⟩
  | eack | srst => exact ⟨_, _, rfl, rfl, _, rfl⟩

/-- Settles O57: the step takes the event off both queues and then runs an operation that does not read the key. -/
theorem keyIsNeverReadBack : Obligations.KeyIsNeverReadBack := by
  intro s key hblock
  rcases step_cases (s := s) rfl with ⟨hidle, hstep⟩ | ⟨t, rest, hpending, hstep⟩ | ⟨rest, hpending, hstep⟩
  · exact ⟨s, key, hstep, step_idle (s := rekeyed s key) hidle⟩
  · obtain ⟨u, w, hexec, hexec', key', rfl⟩ := exec_rekeyed (hblock t rest hpending) (dequeued s rest) key
    exact ⟨u, key', hstep.trans hexec, (step_transaction (s := rekeyed s key) hpending).trans hexec'⟩
  · exact ⟨_, Block.zero, hstep, step_reset (s := rekeyed s key) hpending⟩

end Sys2Proof.Transitions

/-! Cipher-block chaining over blocks (41_cipher.md R171, R172, R190), and the tables and check values of AES. -/

namespace Sys2Proof.Chaining

open Sys2Proof.Machine Sys2Proof.Aes Sys2Proof.Cipher

/-! ## The exclusive or of blocks -/

theorem blockXor_comm (a b : Block) : blockXor a b = blockXor b a := by
  simp only [blockXor, BitVec.xor_comm]

theorem blockXor_left_injective (a : Block) {b c : Block} (h : blockXor a b = blockXor a c) : b = c := by
  rw [← blockXor_self_right b a, ← blockXor_self_right c a, blockXor_comm b, blockXor_comm c, h]

/-- A common summand drops out of a difference. -/
theorem blockXor_blockXor_cancel (a b c : Block) : blockXor (blockXor a b) (blockXor a c) = blockXor b c := by
  rw [blockXor_comm a b, blockXor_assoc, ← blockXor_assoc a a c, blockXor_comm (blockXor a a) c, ← blockXor_assoc c a a,
    blockXor_self_right]

/-! ## BlockEnc and BlockDec (41_cipher.md R179) -/

theorem blockDec_blockEnc (k b : Block) : blockDec k (blockEnc k b) = b := aesDecrypt_aesEncrypt (keyWords k) b

theorem blockEnc_blockDec (k b : Block) : blockEnc k (blockDec k b) = b := aesEncrypt_aesDecrypt (keyWords k) b

theorem blockEnc_injective (k : Block) : Function.Injective (blockEnc k) :=
  Function.LeftInverse.injective (blockDec_blockEnc k)

/-! ## Whole messages (R190 item 1) -/

theorem cbcDecrypt_cbcEncrypt (key chain : Block) (blocks : List Block) :
    cbcDecrypt key chain (cbcEncrypt key chain blocks) = blocks := by
  induction blocks generalizing chain with
  | nil => rfl
  | cons p rest ih => rw [cbcEncrypt, cbcDecrypt, ih, blockDec_blockEnc, blockXor_self_right]

theorem cbcEncrypt_cbcDecrypt (key chain : Block) (blocks : List Block) :
    cbcEncrypt key chain (cbcDecrypt key chain blocks) = blocks := by
  induction blocks generalizing chain with
  | nil => rfl
  | cons c rest ih => rw [cbcDecrypt, cbcEncrypt, blockXor_self_right, blockEnc_blockDec, ih]

/-- Settles O43: block by block, each with the chaining value that both sides have. -/
theorem cbcRoundTrip : Obligations.CbcRoundTrip :=
  fun key iv blocks => ⟨cbcDecrypt_cbcEncrypt key iv blocks, cbcEncrypt_cbcDecrypt key iv blocks⟩

/-! ## One block with another chaining value (R190 items 3 and 4) -/

theorem blockResult_encrypt_ne {c : CipherUnit} {chain : Block} (hdir : c.dir = .encrypt) (hne : chain ≠ c.cv) :
    CipherUnit.blockResult { c with cv := chain } ≠ c.blockResult := by
  obtain ⟨hresult, -⟩ := CipherUnit.encrypt_block hdir
  obtain ⟨hresult', -⟩ := CipherUnit.encrypt_block (c := { c with cv := chain }) hdir
  rw [hresult, hresult']
  exact fun heq => hne (blockXor_left_injective c.din (blockEnc_injective c.key heq))

theorem blockResult_decrypt_xor {c : CipherUnit} (chain : Block) (hdir : c.dir = .decrypt) :
    blockXor (CipherUnit.blockResult { c with cv := chain }) c.blockResult = blockXor chain c.cv := by
  obtain ⟨hresult, -⟩ := CipherUnit.decrypt_block hdir
  obtain ⟨hresult', -⟩ := CipherUnit.decrypt_block (c := { c with cv := chain }) hdir
  rw [hresult, hresult', blockXor_blockXor_cancel]

/-- Settles O40: both commands process their block, and the results differ as stated. -/
theorem chainDifferencesShowInTheOutput : Obligations.ChainDifferencesShowInTheOutput :=
  fun s chain hnone hrun hrem =>
    ⟨_, _, exec_cBlock_of_run hnone hrun hrem,
      exec_cBlock_of_run (s := s.ciphered { s.cipher with cv := chain }) hnone hrun hrem,
      fun hdir hne => blockResult_encrypt_ne hdir hne, fun hdir => blockResult_decrypt_xor chain hdir⟩

/-! ## The tables and check values of AES (41_cipher.md R182 to R184, R188, R189) -/

/-- The affine map of R183. -/
def sboxAffine (b : Byte) : Byte :=
  b ^^^ b.rotateLeft 1 ^^^ b.rotateLeft 2 ^^^ b.rotateLeft 3 ^^^ b.rotateLeft 4 ^^^ 0x63

/-- The byte that the affine map of R183 takes to `y`. -/
def sboxPreimage (y : Byte) : Byte := y.rotateLeft 1 ^^^ y.rotateLeft 3 ^^^ y.rotateLeft 6 ^^^ 0x05

theorem sboxAffine_sboxPreimage (y : Byte) : y = sboxAffine (sboxPreimage y) := by
  revert y
  decide

/-- The byte the affine map takes to `SBOX[a]` is the inverse of `a` in the field, 0 for 0. -/
theorem sboxPreimage_sbox (a : Byte) :
    if a = 0 then sboxPreimage (sbox a) = 0 else gmul a (sboxPreimage (sbox a)) = 1 := by
  revert a
  decide +kernel

/-- Settles O42: the S-box byte by byte, the key schedule and the four check values by evaluation. -/
theorem aesTablesAndCheckValues : Obligations.AesTablesAndCheckValues := by
  refine ⟨fun a => ⟨invSbox_sbox a, sboxPreimage (sbox a), sboxPreimage_sbox a, sboxAffine_sboxPreimage (sbox a)⟩, ?_⟩
  decide +kernel

end Sys2Proof.Chaining

/-! The host's part of the envelope: framing checks, padding, and the numbers of transactions
(43_envelope_sequences.md R264, R265, R267). -/

namespace Sys2Proof.Framing

open Sys2Proof.Machine Sys2Proof.Reads

/-! ## Framing checks (R264) -/

theorem halfAt_toNat (p : List Byte) (k : Nat) :
    (halfAt p k).toNat = (p.getD k 0).toNat + 2 ^ 8 * (p.getD (k + 1) 0).toNat := by
  rw [halfAt, toNat_append_eq_add, Nat.add_comm]

theorem frameCheck_ok_iff (p : List Byte) (len : Nat) : frameCheck p = .ok len ↔
    20 ≤ p.length ∧ len = (halfAt p 2).toNat ∧ p.length = 20 + len + 2 ∧ len % 16 = 0 := by
  fun_cases frameCheck p with
  | case1 hshort => exact iff_of_false nofun (by omega)
  | case2 hlong hlength => exact iff_of_false nofun (by omega)
  | case3 hlong hlength haligned => exact iff_of_false nofun (by omega)
  | case4 hlong hlength haligned =>
    rw [Except.ok.injEq]
    omega

/-! ## Padding (R265) -/

theorem le_paddedLength (full : Bool) (n : Nat) : n ≤ paddedLength full n := by
  unfold paddedLength
  split <;> omega

theorem paddedLength_mod (full : Bool) (n : Nat) : paddedLength full n % 16 = 0 := by
  unfold paddedLength
  split <;> omega

/-- Without the parameter less than a block is added, with it at least a byte and at most a block. -/
theorem paddedLength_false_lt (n : Nat) : paddedLength false n < n + 16 := by
  rw [paddedLength, if_neg (by decide)]
  omega

theorem paddedLength_true_range (n : Nat) : n < paddedLength true n ∧ paddedLength true n ≤ n + 16 := by
  rw [paddedLength, if_pos rfl]
  omega

theorem length_padPayload (full : Bool) (payload : List Byte) :
    (padPayload full payload).length = paddedLength full payload.length := by
  rw [padPayload, List.length_append, List.length_replicate, Nat.add_sub_cancel' (le_paddedLength ..)]

/-- Settles O47: the three checks as an equivalence, and the padding by its length. -/
theorem hostFramingAndPadding : Obligations.HostFramingAndPadding := by
  refine ⟨fun p len => ?_, fun full payload => ⟨?_, List.take_left, ?_, ?_, ?_⟩⟩
  · rw [frameCheck_ok_iff, halfAt_toNat]
  · rw [length_padPayload, paddedLength_mod]
  · rw [padPayload, List.drop_left]
    exact fun b hb => List.eq_of_mem_replicate hb
  · rintro rfl
    rw [length_padPayload]
    exact paddedLength_false_lt _
  · rintro rfl
    rw [length_padPayload]
    exact paddedLength_true_range _

/-! ## Numbers of transactions (R267) -/

theorem length_messageBlocks (blocks : List Block) : (messageBlocks blocks).length = 9 * blocks.length := by
  have hxblk : ∀ b, (xblk b).length = 9 := fun _ => rfl
  rw [messageBlocks, List.length_flatMap]
  simp [hxblk, Nat.mul_comm]

theorem length_ckBytes (bs : List Byte) : (ckBytes bs).length = bs.length / 4 + bs.length % 4 := by
  fun_induction ckBytes bs with
  | case1 b0 b1 b2 b3 rest ih =>
    simp only [List.length_cons, ih]
    omega
  | case2 rest hshort =>
    have : rest.length < 4 := by
      match rest, hshort with
      | [], _ | [_], _ | [_, _], _ | [_, _, _], _ => simp
      | b0 :: b1 :: b2 :: b3 :: rest, h => exact absurd rfl (h b0 b1 b2 b3 rest)
    rw [List.length_map]
    omega

theorem length_blocksOfBytes (count : Nat) (bs : List Byte) : (blocksOfBytes count bs).length = count := by
  induction count generalizing bs with
  | zero => rfl
  | succ count ih => rw [blocksOfBytes, List.length_cons, ih]

theorem length_envEncode (key iv : Block) (plaintext : List Block) :
    (envEncode key iv plaintext).length = 15 + 9 * plaintext.length := by
  simp only [envEncode, List.length_append, length_messageBlocks]
  simp [loadKey, loadIv, writeGroup, setMode]
  omega

theorem length_envDecode (key : Block) {p : List Byte} {len : Nat} (h : frameCheck p = .ok len) :
    (envDecode key p).length = 21 + 9 * (len / 16) := by
  obtain ⟨hlong, rfl, -, -⟩ := (frameCheck_ok_iff p len).1 h
  have hheader : (ckBytes (p.take 20)).length = 5 := by rw [length_ckBytes, List.length_take_of_le hlong]
  simp only [envDecode, List.length_append, length_messageBlocks, length_blocksOfBytes, hheader]
  simp [loadKey, loadIv, writeGroup, setMode]
  omega

/-- Settles O46: the parts of the two sequences, counted. -/
theorem envelopeTransactionCounts : Obligations.EnvelopeTransactionCounts :=
  ⟨length_envEncode, fun key _ _ h => length_envDecode key h⟩

end Sys2Proof.Framing

/-! Runs of the transactions a host issues: what a list of them does to the state, for the checksum unit's writes, the
tap, and the two envelope sequences (30_encoding.md R111, 43_envelope_sequences.md R262, R263). -/

namespace Sys2Proof.Runs

open Sys2Proof.Machine Sys2Proof.Laws Sys2Proof.Encoding Sys2Proof.Checksum Sys2Proof.Cipher Sys2Proof.Control
  Sys2Proof.RoundTrip Sys2Proof.Reads Sys2Proof.Fletcher Sys2Proof.Transitions Sys2Proof.Chaining Sys2Proof.Framing

/-! ## A list of transactions as one function of the state -/

/-- The state an operation leads to. -/
def after (i : Instr) (s : State) : State :=
  match exec i s with
  | .next u => u
  | .fault _ => s
  | .refused _ => s

theorem after_eq {i : Instr} {s u : State} (h : exec i s = .next u) : after i s = u := by rw [after, h]

theorem exec_eq_after (i : Instr) (s : State) : exec i s = .next (after i s) := by
  obtain ⟨u, hexec, -⟩ := exec_transition i s
  rw [hexec, after_eq hexec]

/-- The state a transaction leads to. -/
def perform (s : State) (t : TWord) : State := after (decodeWord t) s

/-- The state a list of transactions leads to. -/
def performAll (s : State) (ts : List TWord) : State := ts.foldl perform s

@[simp] theorem performAll_nil (s : State) : performAll s [] = s := rfl

@[simp] theorem performAll_cons (s : State) (t : TWord) (ts : List TWord) :
    performAll s (t :: ts) = performAll (perform s t) ts := rfl

theorem performAll_append (s : State) (ts us : List TWord) :
    performAll s (ts ++ us) = performAll (performAll s ts) us := List.foldl_append

/-! ## No operation sees what is pending (20_memory.md R80) -/

/-- The second state is the first with `ts` issued. -/
def Issued (ts : List TWord) (s u : State) : Prop := u = s.issue ts

theorem issue_withCk (s : State) (ts : List TWord) (k : CkUnit) : (s.issue ts).withCk k = (s.withCk k).issue ts := rfl

theorem issue_withCipher (s : State) (ts : List TWord) (c : CipherUnit) :
    (s.issue ts).withCipher c = (s.withCipher c).issue ts := rfl

theorem exec_issue (i : Instr) (s : State) (ts : List TWord) :
    ∃ v w, exec i s = .next v ∧ exec i (s.issue ts) = .next w ∧ Issued ts v w := by
  have herr : (s.issue ts).err = s.err := rfl
  have hcst : (s.issue ts).cipher.cst = s.cipher.cst := rfl
  have hrefl : Issued ts s (s.issue ts) := rfl
  have hfault (code : FaultCode) (idx : Idx) (data : Word) :
      Issued ts (raiseFault code idx data s) (raiseFault code idx data (s.issue ts)) := rfl
  cases i with
  | rdId | rdStatus | rdCtrl | rdErr | rdLen | rdRem | rdCksum | rdCkAcc => exact ⟨_, _, rfl, rfl, rfl⟩
  | rdIv | rdDin | rdDout | rdCv | rdZero => exact ⟨_, _, rfl, rfl, rfl⟩
  | wrCtrl | wrLen | wrKey | wrIv | keyClear =>
    exact ⟨_, _, rfl, rfl, idleWrite_related (R := Issued ts) herr hrefl hcst (hfault ..) (issue_withCipher ..)⟩
  | cStart =>
    exact ⟨_, _, rfl, rfl, idleWrite_related (R := Issued ts) herr hrefl hcst (hfault ..)
      (ite_related (hfault ..) (ite_related (hfault ..) (issue_withCipher ..)))⟩
  | cBlock =>
    exact ⟨_, _, rfl, rfl, runCommand_related (R := Issued ts) herr hrefl hcst (hfault ..)
      (ite_related (hfault ..) (issue_withCk (s.withCipher _) ts _))⟩
  | cFinish =>
    exact ⟨_, _, rfl, rfl, runCommand_related (R := Issued ts) herr hrefl hcst (hfault ..)
      (ite_related (hfault ..) (issue_withCipher ..))⟩
  | wrCkVerify =>
    exact ⟨_, _, rfl, rfl, acceptWrite_related (R := Issued ts) herr hrefl (ite_related hrefl (hfault ..))⟩
  | wrCkData8 | wrCkData32 | ckInit =>
    exact ⟨_, _, rfl, rfl, acceptWrite_related (R := Issued ts) herr hrefl (issue_withCk ..)⟩
  | wrDin | cAbort => exact ⟨_, _, rfl, rfl, acceptWrite_related (R := Issued ts) herr hrefl (issue_withCipher ..)⟩
  | wrIllegal => exact ⟨_, _, rfl, rfl, acceptWrite_related (R := Issued ts) herr hrefl (hfault ..)⟩
  | nop => exact ⟨_, _, rfl, rfl, acceptWrite_related (R := Issued ts) herr hrefl hrefl⟩
  | eack | srst => exact ⟨_, _, rfl, rfl, rfl⟩

theorem after_issue (i : Instr) (s : State) (ts : List TWord) : after i (s.issue ts) = (after i s).issue ts := by
  obtain ⟨v, w, hv, hw, hissued⟩ := exec_issue i s ts
  rw [after_eq hv, after_eq hw, hissued]

theorem step_issue_cons (s : State) (t : TWord) (ts : List TWord) :
    step (s.issue (t :: ts)) = .next ((perform s t).issue ts) := by
  rw [step_transaction (t := t) (rest := ts.map .transaction ++ s.port.pending) rfl, exec_eq_after, perform,
    ← after_issue]
  rfl

theorem run_succ {s u : State} (h : step s = .next u) (k : Nat) :
    Host.Core.run Sys2Proof.core (k + 1) s = Host.Core.run Sys2Proof.core k u := by
  have hstep : Sys2Proof.core.step s = .next u := h
  simp only [Host.Core.run, hstep]

/-- Running the issued transactions performs them, and leaves what was pending before. -/
theorem run_issue (s : State) (ts : List TWord) :
    Host.Core.run Sys2Proof.core ts.length (s.issue ts) = .next (performAll s ts) := by
  induction ts generalizing s with
  | nil => rfl
  | cons t ts ih => exact (run_succ (step_issue_cons s t ts) ts.length).trans (ih (perform s t))

theorem run_issue_of_length {ts : List TWord} {n : Nat} (h : ts.length = n) (s : State) :
    Host.Core.run Sys2Proof.core n (s.issue ts) = .next (performAll s ts) := h ▸ run_issue s ts

/-! ## One transaction -/

theorem perform_read (idx : Idx) (s : State) : perform s (readWord idx) = returnRead (memRead idx s) s := by
  rw [perform, decodeWord_readWord]
  exact after_eq (exec_decodeRead idx s)

theorem perform_write {idx : Idx} {data : Word} {i : Instr} (h : decodeWrite idx data = i) (s : State) :
    perform s (writeWord idx data) = after i s := by
  rw [perform, decodeWord_writeWord, h]

section Unfaulted

variable {s : State} (hnone : s.err.ecode = 0)

include hnone

theorem perform_ckInit : perform s (commandWord Opcode.ckInit) = s.withCk CkUnit.seeded :=
  after_eq (congrArg _ (acceptWrite_unfaulted hnone _))

theorem perform_ckData8 (b : Byte) :
    perform s (writeWord Reg.ckData8 (b.setWidth 32)) = s.withCk (absorb s.ck b) := by
  rw [perform_write (decodeWrite_ckData8_operand b)]
  exact after_eq (congrArg _ (acceptWrite_unfaulted hnone _))

theorem perform_ckData32 (w : Word) :
    perform s (writeWord Reg.ckData32 w) = s.withCk (absorbAll s.ck (bytesOf w)) := by
  have hdecode : decodeWrite Reg.ckData32 w = .wrCkData32 w := decodeWrite_ckData32 w
  rw [perform_write hdecode, after_eq (exec_wrCkData32_eq_feed w s), feed_unfaulted hnone]

theorem perform_ckVerify (expect : Half) : perform s (writeWord Reg.ckVerify (expect.setWidth 32)) =
    if cksum s.ck = expect then s else s.recorded 4 0x0B 0 := by
  rw [perform_write (decodeWrite_ckVerify_operand expect)]
  exact after_eq (congrArg _ (acceptWrite_unfaulted hnone _))

theorem perform_din (n : WordNo) (w : Word) :
    perform s (writeWord (groupIdx Reg.din0 n) w) = s.withCipher (s.cipher.writeDin n w) := by
  rw [perform_write (decodeWrite_din n w)]
  exact after_eq (congrArg _ (acceptWrite_unfaulted hnone _))

section Idle

variable (hidle : s.cipher.cst = .idle)

include hidle

theorem perform_key (n : WordNo) (w : Word) :
    perform s (writeWord (groupIdx Reg.key0 n) w) = s.withCipher (s.cipher.writeKey n w) := by
  rw [perform_write (decodeWrite_key n w)]
  exact after_eq (congrArg _ (idleWrite_idle hnone _ hidle ..))

theorem perform_iv (n : WordNo) (w : Word) :
    perform s (writeWord (groupIdx Reg.iv0 n) w) = s.withCipher (s.cipher.writeIv n w) := by
  rw [perform_write (decodeWrite_iv n w)]
  exact after_eq (congrArg _ (idleWrite_idle hnone _ hidle ..))

theorem perform_ctrl (dir : Direction) (tap : Bool) :
    perform s (writeWord Reg.ctrl (ctrlData dir tap)) = s.withCipher (s.cipher.setCtrl dir tap) := by
  rw [perform_write (decodeWrite_ctrl_operands dir tap)]
  exact after_eq (congrArg _ (idleWrite_idle hnone _ hidle ..))

theorem perform_len (v : Half) :
    perform s (writeWord Reg.len (v.setWidth 32)) = s.withCipher (s.cipher.setLen v) := by
  rw [perform_write (decodeWrite_len_operand v)]
  exact after_eq (congrArg _ (idleWrite_idle hnone _ hidle ..))

theorem perform_cStart (hkey : s.cipher.kmask.toNat = 15) (hiv : s.cipher.imask.toNat = 15)
    (hlen : s.cipher.len.toNat % 16 = 0) :
    perform s (commandWord Opcode.cStart) = s.withCipher s.cipher.openMessage := by
  refine after_eq ((exec_cStart_of_idle hnone hidle).trans (congrArg _ ?_))
  rw [if_pos ⟨hkey, hiv⟩, if_pos hlen]
  rfl

end Idle

section Run

variable (hrun : s.cipher.cst = .run)

include hrun

theorem perform_cBlock (hrem : 16 ≤ s.cipher.rem.toNat) : perform s (commandWord Opcode.cBlock) =
    (s.withCipher s.cipher.processBlock).withCk (tapBlock s.ck s.cipher) := by
  have hleft : ¬ s.cipher.rem < 16 := Nat.not_lt.2 hrem
  refine after_eq (congrArg _ ((runCommand_run hnone _ _ hrun).trans ?_))
  exact if_neg hleft

theorem perform_cFinish (hrem : s.cipher.rem.toNat = 0) :
    perform s (commandWord Opcode.cFinish) = s.withCipher s.cipher.closeMessage := by
  have hcomplete : s.cipher.rem = 0 := BitVec.eq_of_toNat_eq hrem
  refine after_eq (congrArg _ ((runCommand_run hnone _ _ hrun).trans ?_))
  exact if_neg (not_not.2 hcomplete)

end Run

end Unfaulted

/-! ## Feeding the checksum unit (30_encoding.md R111, 40_checksum.md R142) -/

theorem memRead_cksum (s : State) : memRead Reg.cksum s = (cksum s.ck).setWidth 32 := rfl

theorem bytesOf_wordOfBytes (b0 b1 b2 b3 : Byte) : bytesOf (wordOfBytes b0 b1 b2 b3) = [b0, b1, b2, b3] := by
  obtain ⟨h0, h1, h2, h3⟩ := byteOf_wordOfBytes b0 b1 b2 b3
  rw [bytesOf, h0, h1, h2, h3]

/-- Transactions that feed bytes one after the other feed them in order. -/
theorem withCk_absorbAll_append (s : State) (as bs : List Byte) :
    (s.withCk (absorbAll s.ck as)).withCk (absorbAll (s.withCk (absorbAll s.ck as)).ck bs) =
      s.withCk (absorbAll s.ck (as ++ bs)) := by
  rw [absorbAll_append]
  rfl

theorem performAll_feeding {α : Type} {word : α → TWord} {bytes : α → List Byte}
    (hword : ∀ (a : α) {s : State}, s.err.ecode = 0 → perform s (word a) = s.withCk (absorbAll s.ck (bytes a)))
    {s : State} (hnone : s.err.ecode = 0) (as : List α) :
    performAll s (as.map word) = s.withCk (absorbAll s.ck (as.flatMap bytes)) := by
  induction as generalizing s with
  | nil => rfl
  | cons a as ih =>
    have hfed : (s.withCk (absorbAll s.ck (bytes a))).err.ecode = 0 := hnone
    rw [List.map_cons, performAll_cons, hword a hnone, ih hfed]
    exact withCk_absorbAll_append s (bytes a) (as.flatMap bytes)

theorem performAll_ckData8 {s : State} (hnone : s.err.ecode = 0) (bs : List Byte) :
    performAll s (bs.map fun b => writeWord Reg.ckData8 (b.setWidth 32)) = s.withCk (absorbAll s.ck bs) := by
  rw [performAll_feeding (bytes := fun b => [b]) (fun b _ hnone => perform_ckData8 hnone b) hnone,
    List.flatMap_singleton']

theorem performAll_ckBytes {s : State} (hnone : s.err.ecode = 0) (bs : List Byte) :
    performAll s (ckBytes bs) = s.withCk (absorbAll s.ck bs) := by
  fun_induction ckBytes bs generalizing s with
  | case1 b0 b1 b2 b3 rest ih =>
    have hfed : (s.withCk (absorbAll s.ck [b0, b1, b2, b3])).err.ecode = 0 := hnone
    rw [performAll_cons, perform_ckData32 hnone, bytesOf_wordOfBytes, ih hfed]
    exact withCk_absorbAll_append s [b0, b1, b2, b3] rest
  | case2 rest => exact performAll_ckData8 hnone rest

/-- Settles O28: the whole words and the bytes left over, absorbed in order. -/
theorem ckBytesAbsorbsItsBytes : Obligations.CkBytesAbsorbsItsBytes := by
  intro s bs hnone
  rw [run_issue, performAll_ckBytes hnone]
  rfl

theorem perform_feed (f : Feed) {s : State} (hnone : s.err.ecode = 0) :
    perform s (encodeWord f.instr) = s.withCk (absorbAll s.ck f.bytes) := by
  cases f with
  | byte b => exact perform_ckData8 hnone b
  | word w => exact perform_ckData32 hnone w

/-- Settles O27: the seed, the bytes of the feeds, and the read of their checksum. -/
theorem fedBytesReadBackAsTheirChecksum : Obligations.FedBytesReadBackAsTheirChecksum := by
  intro s feeds hnone
  have hinit : perform s 0x8300000001 = s.withCk CkUnit.seeded := perform_ckInit hnone
  have hseeded : (s.withCk CkUnit.seeded).err.ecode = 0 := hnone
  have hread (v : State) : perform v 0x0A00000000 = returnRead ((cksum v.ck).setWidth 32) v := perform_read Reg.cksum v
  refine ⟨_, run_issue_of_length (by simp) s, ?_⟩
  rw [List.cons_append, performAll_cons, hinit, performAll_append, performAll_feeding perform_feed hseeded,
    performAll_cons, performAll_nil, hread]
  exact ⟨rfl, rfl, rfl⟩

/-! ## The tap (41_cipher.md R175) -/

theorem plaintext_eq_ite (c : CipherUnit) : c.plaintext = if c.dir = .encrypt then c.din else c.blockResult := by
  cases hdir : c.dir <;> simp [CipherUnit.plaintext, hdir]

/-- Sixteen `WR.CK_DATA8` with the bytes of a block. -/
theorem run_blockBytes {s : State} (hnone : s.err.ecode = 0) (b : Block) :
    Host.Core.run Sys2Proof.core 16 (s.issue ((blockBytes b).map fun b => writeWord 0x08 (BitVec.ofNat 32 b.toNat))) =
      .next (s.withCk (absorbAll s.ck (blockBytes b))) := by
  have hwords : (blockBytes b).map (fun b => writeWord 0x08 (BitVec.ofNat 32 b.toNat)) =
      (blockBytes b).map fun b => writeWord Reg.ckData8 (b.setWidth 32) := by
    simp only [BitVec.ofNat_toNat]
    rfl
  rw [hwords, ← performAll_ckData8 hnone]
  exact run_issue_of_length (by rfl) s

/-- Settles O39: both sides absorb the sixteen bytes of the plaintext. -/
theorem tapEqualsSixteenByteWrites : Obligations.TapEqualsSixteenByteWrites := by
  intro s hnone hrun hrem htap
  refine ⟨_, _, exec_cBlock_of_run hnone hrun hrem, run_blockBytes hnone _, ?_, State.withCk_cipher ..,
    State.withCk_err ..⟩
  rw [State.withCk_ck, if_pos htap, plaintext_eq_ite, absorbAll]

end Sys2Proof.Runs

/-! A message with the tap on (43_envelope_sequences.md R267): it is configured and opened, its blocks pass one after
the other, and it is closed. -/

namespace Sys2Proof.Messages

open Sys2Proof.Machine Sys2Proof.Encoding Sys2Proof.Cipher Sys2Proof.Reads Sys2Proof.Chaining Sys2Proof.Framing
  Sys2Proof.Runs

/-! ## Register groups (30_encoding.md R111) -/

/-- The four words of a block written one after the other. -/
def writeWords (write : CipherUnit → WordNo → Word → CipherUnit) (c : CipherUnit) (b : Block) : CipherUnit :=
  write (write (write (write c 0 b.x0) 1 b.x1) 2 b.x2) 3 b.x3

/-- Four writes that each need only what each of them keeps. -/
theorem performAll_writeGroup {base : Idx} {write : CipherUnit → WordNo → Word → CipherUnit} {P : State → Prop}
    (hperform : ∀ {s}, P s → ∀ n w, perform s (writeWord (groupIdx base n) w) = s.withCipher (write s.cipher n w))
    (hkeep : ∀ {s}, P s → ∀ n w, P (s.withCipher (write s.cipher n w))) {s : State} (hs : P s) (b : Block) :
    performAll s (writeGroup base b) = s.withCipher (writeWords write s.cipher b) := by
  have h0 := hkeep hs 0 b.x0
  have h1 := hkeep h0 1 b.x1
  have h2 := hkeep h1 2 b.x2
  rw [writeGroup, performAll_cons, hperform hs, performAll_cons, hperform h0, performAll_cons, hperform h1,
    performAll_cons, hperform h2]
  rfl

theorem fullMask (m : BitVec 4) : setMaskBit (setMaskBit (setMaskBit (setMaskBit m 0) 1) 2) 3 = 0b1111 := by
  revert m
  decide

/-- The cipher unit with a whole key written. -/
def withKey (c : CipherUnit) (b : Block) : CipherUnit := { c with key := b, kmask := 0b1111 }

/-- The cipher unit with a whole IV written. -/
def withIv (c : CipherUnit) (b : Block) : CipherUnit := { c with iv := b, imask := 0b1111 }

/-- The cipher unit with a block put in. -/
def withDin (c : CipherUnit) (b : Block) : CipherUnit := { c with din := b }

theorem writeWords_key (c : CipherUnit) (b : Block) : writeWords CipherUnit.writeKey c b = withKey c b := by
  rw [withKey, ← fullMask c.kmask]
  rfl

theorem writeWords_iv (c : CipherUnit) (b : Block) : writeWords CipherUnit.writeIv c b = withIv c b := by
  rw [withIv, ← fullMask c.imask]
  rfl

theorem writeWords_din (c : CipherUnit) (b : Block) : writeWords CipherUnit.writeDin c b = withDin c b := rfl

/-- No fault held and no message open. -/
def Idle (s : State) : Prop := s.err.ecode = 0 ∧ s.cipher.cst = .idle

theorem performAll_loadKey {s : State} (h : Idle s) (b : Block) :
    performAll s (loadKey b) = s.withCipher (withKey s.cipher b) := by
  rw [← writeWords_key]
  exact performAll_writeGroup (P := Idle) (fun ⟨hnone, hidle⟩ => perform_key hnone hidle) (fun h _ _ => h) h b

theorem performAll_loadIv {s : State} (h : Idle s) (b : Block) :
    performAll s (loadIv b) = s.withCipher (withIv s.cipher b) := by
  rw [← writeWords_iv]
  exact performAll_writeGroup (P := Idle) (fun ⟨hnone, hidle⟩ => perform_iv hnone hidle) (fun h _ _ => h) h b

theorem performAll_putBlk {s : State} (hnone : s.err.ecode = 0) (b : Block) :
    performAll s (putBlk b) = s.withCipher (withDin s.cipher b) := by
  rw [← writeWords_din]
  exact performAll_writeGroup (P := fun s => s.err.ecode = 0) perform_din (fun h _ _ => h) hnone b

/-- The state after a part of a message: another cipher unit, bytes absorbed, words returned. -/
def passed (s : State) (c : CipherUnit) (bytes : List Byte) (words : List Word) : State :=
  { s with ck := absorbAll s.ck bytes, cipher := c, port := { s.port with rdata := s.port.rdata ++ words } }

@[simp] theorem passed_ck (s : State) (c : CipherUnit) (bytes : List Byte) (words : List Word) :
    (passed s c bytes words).ck = absorbAll s.ck bytes := rfl
@[simp] theorem passed_cipher (s : State) (c : CipherUnit) (bytes : List Byte) (words : List Word) :
    (passed s c bytes words).cipher = c := rfl
@[simp] theorem passed_port (s : State) (c : CipherUnit) (bytes : List Byte) (words : List Word) :
    (passed s c bytes words).port = { s.port with rdata := s.port.rdata ++ words } := rfl

theorem passed_passed (s : State) (c d : CipherUnit) (bs cs : List Byte) (vs ws : List Word) :
    passed (passed s c bs vs) d cs ws = passed s d (bs ++ cs) (vs ++ ws) := by
  simp only [passed, absorbAll_append, List.append_assoc]

theorem withCipher_passed (s : State) (c d : CipherUnit) (bs : List Byte) (ws : List Word) :
    (passed s c bs ws).withCipher d = passed s d bs ws := rfl

theorem passed_nil (s : State) : passed s s.cipher [] [] = s := by
  simp [passed]

theorem returnRead_eq_passed (v : Word) (s : State) : returnRead v s = passed s s.cipher [] [v] := rfl

theorem withCipher_withCipher (s : State) (c d : CipherUnit) : (s.withCipher c).withCipher d = s.withCipher d := rfl

theorem memRead_dout (n : WordNo) (s : State) : memRead (groupIdx Reg.dout0 n) s = blockWord s.cipher.dout n := by
  fin_cases n <;> rfl

theorem performAll_getBlk (s : State) :
    performAll s getBlk = passed s s.cipher [] (wordsOfBlocks [s.cipher.dout]) := by
  simp only [getBlk, performAll_cons, performAll_nil, perform_read, memRead_dout, returnRead_cipher]
  simp only [returnRead_eq_passed, passed_cipher, passed_passed]
  rfl

/-! ## The blocks of a message -/

/-- The cipher unit after one block of a message. -/
def throughBlock (c : CipherUnit) (b : Block) : CipherUnit := (withDin c b).processBlock

/-- The blocks a message reads back. -/
def outputs (c : CipherUnit) : List Block → List Block
  | [] => []
  | b :: bs => (withDin c b).blockResult :: outputs (throughBlock c b) bs

/-- The plaintext side of the blocks of a message. -/
def plaintexts (c : CipherUnit) : List Block → List Block
  | [] => []
  | b :: bs => (withDin c b).plaintext :: plaintexts (throughBlock c b) bs

theorem outputs_encrypt {c : CipherUnit} (hdir : c.dir = .encrypt) (bs : List Block) :
    outputs c bs = cbcEncrypt c.key c.cv bs := by
  induction bs generalizing c with
  | nil => rfl
  | cons b bs ih =>
    obtain ⟨hresult, hchain, -⟩ := CipherUnit.encrypt_block (c := withDin c b) hdir
    have hcv : (throughBlock c b).cv = blockEnc c.key (blockXor b c.cv) := hchain
    have hnext : (throughBlock c b).dir = .encrypt := hdir
    rw [outputs, ih hnext, hresult, hcv]
    rfl

theorem outputs_decrypt {c : CipherUnit} (hdir : c.dir = .decrypt) (bs : List Block) :
    outputs c bs = cbcDecrypt c.key c.cv bs := by
  induction bs generalizing c with
  | nil => rfl
  | cons b bs ih =>
    obtain ⟨hresult, hchain, -⟩ := CipherUnit.decrypt_block (c := withDin c b) hdir
    have hcv : (throughBlock c b).cv = b := hchain
    have hnext : (throughBlock c b).dir = .decrypt := hdir
    rw [outputs, ih hnext, hresult, hcv]
    rfl

theorem plaintexts_encrypt {c : CipherUnit} (hdir : c.dir = .encrypt) (bs : List Block) : plaintexts c bs = bs := by
  induction bs generalizing c with
  | nil => rfl
  | cons b bs ih =>
    obtain ⟨-, -, hplain⟩ := CipherUnit.encrypt_block (c := withDin c b) hdir
    rw [plaintexts, hplain, ih (c := throughBlock c b) hdir]
    rfl

theorem plaintexts_decrypt {c : CipherUnit} (hdir : c.dir = .decrypt) (bs : List Block) :
    plaintexts c bs = outputs c bs := by
  induction bs generalizing c with
  | nil => rfl
  | cons b bs ih =>
    obtain ⟨hresult, -, hplain⟩ := CipherUnit.decrypt_block (c := withDin c b) hdir
    rw [plaintexts, outputs, hplain, hresult, ih (c := throughBlock c b) hdir]

theorem wordsOfBlocks_cons (b : Block) (bs : List Block) :
    wordsOfBlocks (b :: bs) = wordsOfBlocks [b] ++ wordsOfBlocks bs := by
  simp [wordsOfBlocks]

theorem bytesOfBlocks_cons (b : Block) (bs : List Block) :
    bytesOfBlocks (b :: bs) = blockBytes b ++ bytesOfBlocks bs := by
  simp [bytesOfBlocks]

/-- In a message with the tap on, `left` blocks before its end. -/
structure Running (s : State) (left : Nat) : Prop where
  noFault : s.err.ecode = 0
  isOpen : s.cipher.cst = .run
  tapped : s.cipher.tap = true
  remaining : s.cipher.rem.toNat = 16 * left

theorem performAll_xblk {s : State} {left : Nat} (h : Running s (left + 1)) (b : Block) : performAll s (xblk b) =
    passed s (throughBlock s.cipher b) (blockBytes (withDin s.cipher b).plaintext)
      (wordsOfBlocks [(withDin s.cipher b).blockResult]) := by
  obtain ⟨hnone, hrun, htap, hrem⟩ := h
  have hput : performAll s (putBlk b) = s.withCipher (withDin s.cipher b) := performAll_putBlk hnone b
  have hleft : 16 ≤ (s.withCipher (withDin s.cipher b)).cipher.rem.toNat := by
    show 16 ≤ s.cipher.rem.toNat
    omega
  have hblock := perform_cBlock (s := s.withCipher (withDin s.cipher b)) hnone hrun hleft
  have htapped := tapBlock_on (c := withDin s.cipher b) htap s.ck
  rw [xblk, performAll_append, performAll_append, hput, performAll_cons, performAll_nil, hblock, performAll_getBlk,
    State.withCipher_cipher, State.withCipher_ck, htapped]
  simp only [passed, throughBlock, State.withCk_ck, State.withCk_cipher, State.withCk_err, State.withCk_port,
    State.withCipher_cipher, State.withCipher_err, State.withCipher_port, CipherUnit.processBlock_dout, absorbAll_nil]

theorem running_after_block {s : State} {left : Nat} (h : Running s (left + 1)) (b : Block) (bytes : List Byte)
    (words : List Word) : Running (passed s (throughBlock s.cipher b) bytes words) left := by
  obtain ⟨hnone, hrun, htap, hrem⟩ := h
  refine ⟨hnone, hrun, htap, ?_⟩
  show (s.cipher.rem - 16).toNat = 16 * left
  rw [BitVec.toNat_sub_of_le (by show 16 ≤ s.cipher.rem.toNat; omega)]
  show s.cipher.rem.toNat - 16 = 16 * left
  omega

/-- The blocks of a message pass one after the other: the chain runs through them, every plaintext is absorbed, and
every result is read back. -/
theorem performAll_messageBlocks {s : State} {blocks : List Block} (h : Running s blocks.length) :
    performAll s (messageBlocks blocks) = passed s (blocks.foldl throughBlock s.cipher)
      (bytesOfBlocks (plaintexts s.cipher blocks)) (wordsOfBlocks (outputs s.cipher blocks)) ∧
    Running (performAll s (messageBlocks blocks)) 0 := by
  induction blocks generalizing s with
  | nil => exact ⟨(passed_nil s).symm, h⟩
  | cons b blocks ih =>
    obtain ⟨heq, hrunning⟩ := ih (running_after_block h b (blockBytes (withDin s.cipher b).plaintext)
      (wordsOfBlocks [(withDin s.cipher b).blockResult]))
    have hsplit : performAll s (messageBlocks (b :: blocks)) =
        performAll (performAll s (xblk b)) (messageBlocks blocks) := performAll_append ..
    rw [hsplit, performAll_xblk h]
    refine ⟨?_, hrunning⟩
    rw [heq, passed_passed, passed_cipher, List.foldl_cons, outputs, plaintexts, ← wordsOfBlocks_cons,
      ← bytesOfBlocks_cons]

/-! ## A message from its configuration to its end (R267) -/

/-- The part of both sequences that configures and opens a message and reads that no fault is held. -/
def opening (key iv : Block) (dir : Direction) (len : Half) : List TWord :=
  loadKey key ++ loadIv iv ++ setMode dir true ++
    [writeWord Reg.len (len.setWidth 32), commandWord Opcode.cStart, readWord Reg.err]

/-- The cipher unit configured for a message with the tap on. -/
def configured (c : CipherUnit) (key iv : Block) (dir : Direction) (len : Half) : CipherUnit :=
  ((withIv (withKey c key) iv).setCtrl dir true).setLen len

theorem memRead_err {s : State} (h : s.err = FaultRecord.none) : memRead Reg.err s = 0 := by
  have hview : memRead Reg.err s = errView s.err := rfl
  rw [hview, h]
  rfl

section Message

variable {s : State} (hnone : s.err = FaultRecord.none) (hidle : s.cipher.cst = .idle) (key iv : Block)
  (dir : Direction) {len : Half}

include hnone hidle

theorem performAll_opening (hlen : len.toNat % 16 = 0) : performAll s (opening key iv dir len) =
    passed s (configured s.cipher key iv dir len).openMessage [] [0] := by
  have hclear : s.err.ecode = 0 := congrArg FaultRecord.ecode hnone
  have hkey := performAll_loadKey ⟨hclear, hidle⟩ key
  have hiv := performAll_loadIv (s := s.withCipher (withKey s.cipher key)) ⟨hclear, hidle⟩ iv
  have hctrl := perform_ctrl (s := s.withCipher (withIv (withKey s.cipher key) iv)) hclear hidle dir true
  have hset : perform (s.withCipher ((withIv (withKey s.cipher key) iv).setCtrl dir true))
      (writeWord Reg.len (len.setWidth 32)) = s.withCipher (configured s.cipher key iv dir len) :=
    perform_len (s := s.withCipher ((withIv (withKey s.cipher key) iv).setCtrl dir true)) hclear hidle len
  have hstart := perform_cStart (s := s.withCipher (configured s.cipher key iv dir len)) hclear hidle rfl rfl hlen
  have hread := perform_read Reg.err (s.withCipher (configured s.cipher key iv dir len).openMessage)
  have hnoFault : (s.withCipher (configured s.cipher key iv dir len).openMessage).err = FaultRecord.none := hnone
  simp only [State.withCipher_cipher, withCipher_withCipher] at hiv hctrl hstart
  rw [opening, performAll_append, performAll_append, performAll_append, hkey, hiv, setMode]
  simp only [performAll_cons, performAll_nil, hctrl, hset, hstart, hread, memRead_err hnoFault]
  rfl

omit hidle in
theorem running_after_opening {left : Nat} (hlen : len.toNat = 16 * left) (words : List Word) :
    Running (passed s (configured s.cipher key iv dir len).openMessage [] words) left :=
  ⟨congrArg FaultRecord.ecode hnone, rfl, rfl, hlen⟩

end Message

/-- The blocks that a message reads back under a key and an IV. -/
def cbcOutputs (key iv : Block) (blocks : List Block) : Direction → List Block
  | .encrypt => cbcEncrypt key iv blocks
  | .decrypt => cbcDecrypt key iv blocks

/-- The blocks that a message feeds to the checksum unit. -/
def cbcPlaintexts (key iv : Block) (blocks : List Block) : Direction → List Block
  | .encrypt => blocks
  | .decrypt => cbcDecrypt key iv blocks

theorem outputs_configured (c : CipherUnit) (key iv : Block) (dir : Direction) (len : Half) (blocks : List Block) :
    outputs (configured c key iv dir len).openMessage blocks = cbcOutputs key iv blocks dir ∧
      plaintexts (configured c key iv dir len).openMessage blocks = cbcPlaintexts key iv blocks dir := by
  cases dir with
  | encrypt => exact ⟨outputs_encrypt rfl blocks, plaintexts_encrypt rfl blocks⟩
  | decrypt => exact ⟨outputs_decrypt rfl blocks, (plaintexts_decrypt rfl blocks).trans (outputs_decrypt rfl blocks)⟩

/-- The transactions of a message, from its configuration to `C_FINISH`. -/
def message (key iv : Block) (dir : Direction) (len : Half) (blocks : List Block) : List TWord :=
  opening key iv dir len ++ messageBlocks blocks ++ [commandWord Opcode.cFinish]

/-- The cipher unit after a message. -/
def closed (c : CipherUnit) (key iv : Block) (dir : Direction) (len : Half) (blocks : List Block) : CipherUnit :=
  (blocks.foldl throughBlock (configured c key iv dir len).openMessage).closeMessage

/-- A message reads no fault and its blocks, feeds its plaintext, and ends closed. -/
theorem performAll_message {s : State} (hnone : s.err = FaultRecord.none) (hidle : s.cipher.cst = .idle)
    (key iv : Block) (dir : Direction) {len : Half} {blocks : List Block} (hlen : len.toNat = 16 * blocks.length) :
    performAll s (message key iv dir len blocks) =
      passed s (closed s.cipher key iv dir len blocks) (bytesOfBlocks (cbcPlaintexts key iv blocks dir))
        (0 :: wordsOfBlocks (cbcOutputs key iv blocks dir)) := by
  have haligned : len.toNat % 16 = 0 := by omega
  obtain ⟨houtputs, hplaintexts⟩ := outputs_configured s.cipher key iv dir len blocks
  obtain ⟨hblocks, hrunning⟩ := performAll_messageBlocks (running_after_opening hnone key iv dir hlen [0])
  rw [passed_passed, passed_cipher, houtputs, hplaintexts] at hblocks
  rw [hblocks] at hrunning
  have hfinish := perform_cFinish hrunning.noFault hrunning.isOpen hrunning.remaining
  rw [message, performAll_append, performAll_append, performAll_opening hnone hidle key iv dir haligned, hblocks,
    performAll_cons, hfinish, performAll_nil, withCipher_passed, passed_cipher]
  rfl

end Sys2Proof.Messages

/-! The two envelope sequences as a message between the seeding of the checksum unit and the use of its result
(43_envelope_sequences.md R262, R263). -/

namespace Sys2Proof.Envelope

open Sys2Proof.Machine Sys2Proof.Encoding Sys2Proof.Framing Sys2Proof.Runs Sys2Proof.Messages

/-- The checksum of bytes fed after a seed in two parts. -/
theorem cksum_seeded (as bs : List Byte) : cksum (absorbAll (absorbAll CkUnit.seeded as) bs) = checksum (as ++ bs) := by
  rw [checksum, absorbAll_append]

theorem ready_unfaulted {s : State} (h : s.Ready) : s.err.ecode = 0 := congrArg FaultRecord.ecode h.1

/-! ## Encode (R262) -/

/-- The length written by encode, for every message that fits the register. -/
theorem lengthWord_eq {m : Nat} (hm : m ≤ 4095) :
    (BitVec.ofNat 16 (16 * m)).toNat = 16 * m ∧ BitVec.ofNat 32 (16 * m) = (BitVec.ofNat 16 (16 * m)).setWidth 32 := by
  have hlen : (BitVec.ofNat 16 (16 * m)).toNat = 16 * m := by
    rw [BitVec.toNat_ofNat]
    omega
  refine ⟨hlen, BitVec.eq_of_toNat_eq ?_⟩
  rw [BitVec.toNat_setWidth, hlen, BitVec.toNat_ofNat]

theorem envEncode_eq (key iv : Block) {plaintext : List Block} (hm : plaintext.length ≤ 4095) :
    envEncode key iv plaintext = commandWord Opcode.ckInit ::
      (message key iv .encrypt (BitVec.ofNat 16 (16 * plaintext.length)) plaintext ++ [readWord Reg.cksum]) := by
  obtain ⟨-, hword⟩ := lengthWord_eq hm
  simp [envEncode, message, opening, hword]

theorem performAll_envEncode {s : State} (h : s.Ready) (key iv : Block) {plaintext : List Block}
    (hm : plaintext.length ≤ 4095) : performAll s (envEncode key iv plaintext) =
      passed (s.withCk CkUnit.seeded)
        (closed s.cipher key iv .encrypt (BitVec.ofNat 16 (16 * plaintext.length)) plaintext) (bytesOfBlocks plaintext)
        (0 :: wordsOfBlocks (cbcEncrypt key iv plaintext) ++ [(checksum (bytesOfBlocks plaintext)).setWidth 32]) := by
  obtain ⟨hnone, hidle⟩ := id h
  obtain ⟨hlen, -⟩ := lengthWord_eq hm
  have hmessage := performAll_message (s := s.withCk CkUnit.seeded) hnone hidle key iv .encrypt hlen
  rw [envEncode_eq key iv hm, performAll_cons, perform_ckInit (ready_unfaulted h), performAll_append, hmessage,
    performAll_cons, performAll_nil, perform_read, memRead_cksum, passed_ck, returnRead_eq_passed, passed_cipher,
    passed_passed, List.append_nil]
  rfl

/-- Settles O44: the reads of the message between the seed and the checksum of its plaintext. -/
theorem envEncodeYieldsCiphertextAndChecksum : Obligations.EnvEncodeYieldsCiphertextAndChecksum := by
  intro s key iv plaintext hready hm
  refine ⟨_, run_issue_of_length (length_envEncode key iv plaintext) s, ?_⟩
  rw [performAll_envEncode hready key iv hm]
  refine ⟨?_, ⟨hready.1, rfl⟩, rfl⟩
  rw [passed_port]
  simp

/-! ## Decode (R263) -/

/-- The IV of a packet. -/
def packetIv (p : List Byte) : Block := blockOfBytes ((p.drop 4).take 16)

/-- The ciphertext blocks of a packet. -/
def packetBlocks (p : List Byte) : List Block := blocksOfBytes ((halfAt p 2).toNat / 16) (p.drop 20)

/-- The trailer of a packet. -/
def packetTrailer (p : List Byte) : Half := halfAt p (20 + (halfAt p 2).toNat)

theorem envDecode_eq (key : Block) (p : List Byte) : envDecode key p = commandWord Opcode.ckInit ::
    (ckBytes (p.take 20) ++ (message key (packetIv p) .decrypt (halfAt p 2) (packetBlocks p) ++
      [writeWord Reg.ckVerify ((packetTrailer p).setWidth 32), readWord Reg.err])) := by
  simp [envDecode, message, opening, packetIv, packetBlocks, packetTrailer]

/-- What `ERR` reads after a mismatch (60_exceptions.md R294). -/
theorem memRead_recorded (s : State) : memRead Reg.err (s.recorded 4 0x0B 0) = 0x00000B04 := by
  have hview : memRead Reg.err (s.recorded 4 0x0B 0) = errView ⟨4, 0x0B, 0⟩ := rfl
  rw [hview]
  decide

/-- `CK_VERIFY` and the read of its verdict. -/
theorem performAll_verdict {s : State} (hnone : s.err = FaultRecord.none) (expect : Half) :
    (performAll s [writeWord Reg.ckVerify (expect.setWidth 32), readWord Reg.err]).port =
      { s.port with rdata := s.port.rdata ++ [if cksum s.ck = expect then 0 else 0x00000B04] } := by
  rw [performAll_cons, performAll_cons, performAll_nil, perform_ckVerify (congrArg FaultRecord.ecode hnone),
    perform_read]
  split
  · rw [memRead_err hnone]
    rfl
  · rw [memRead_recorded]
    rfl

/-- The bytes of the trailer, low byte first, are the checksum. -/
theorem checksum_eq_halfAt_iff (bs p : List Byte) (k : Nat) : checksum bs = halfAt p k ↔
    (checksum bs).toNat = (p.getD k 0).toNat + 2 ^ 8 * (p.getD (k + 1) 0).toNat := by
  rw [← BitVec.toNat_inj, halfAt_toNat]

theorem envDecode_port {s : State} (h : s.Ready) (key : Block) {p : List Byte}
    (haligned : (halfAt p 2).toNat % 16 = 0) : (performAll s (envDecode key p)).port =
      { s.port with
        rdata := s.port.rdata ++ 0 :: wordsOfBlocks (cbcDecrypt key (packetIv p) (packetBlocks p)) ++
          [if checksum (p.take 20 ++ bytesOfBlocks (cbcDecrypt key (packetIv p) (packetBlocks p))) = packetTrailer p
            then 0 else 0x00000B04] } := by
  obtain ⟨hnone, hidle⟩ := id h
  have hlen : (halfAt p 2).toNat = 16 * (packetBlocks p).length := by
    rw [packetBlocks, length_blocksOfBytes]
    omega
  have hheader := performAll_ckBytes (s := s.withCk CkUnit.seeded) (ready_unfaulted h) (p.take 20)
  have hmessage := performAll_message (s := (s.withCk CkUnit.seeded).withCk (absorbAll CkUnit.seeded (p.take 20)))
    hnone hidle key (packetIv p) .decrypt hlen
  have hverdict (c : CipherUnit) (bytes : List Byte) (words : List Word) := performAll_verdict
    (s := passed ((s.withCk CkUnit.seeded).withCk (absorbAll CkUnit.seeded (p.take 20))) c bytes words) hnone
    (packetTrailer p)
  rw [State.withCk_ck] at hheader
  rw [envDecode_eq, performAll_cons, perform_ckInit (ready_unfaulted h), performAll_append, hheader, performAll_append,
    hmessage, hverdict, passed_ck, passed_port, State.withCk_ck, cksum_seeded]
  rfl

/-- Settles O45: header and plaintext are fed, and the verdict is on their checksum. -/
theorem envDecodeYieldsPlaintextAndVerdict : Obligations.EnvDecodeYieldsPlaintextAndVerdict := by
  intro s key p len hready hframe
  refine ⟨_, run_issue_of_length (length_envDecode key hframe) s, ?_⟩
  obtain ⟨-, rfl, -, haligned⟩ := (frameCheck_ok_iff p len).1 hframe
  have htrailer : 20 + (halfAt p 2).toNat + 1 = 21 + (halfAt p 2).toNat := by omega
  rw [envDecode_port hready key haligned]
  simp only [packetTrailer, checksum_eq_halfAt_iff, htrailer]
  refine ⟨trivial, ?_⟩
  rw [List.append_assoc s.port.rdata [0]]
  rfl

end Sys2Proof.Envelope
